-- ==== Sys2Proof/Word.lean ====
section
/-! DEFINITION. The word types of the PoW core (spec/00_scope.md section 6: all quantities are unsigned, of fixed width). -/

namespace Sys2Proof

/-- A byte of one of the internal buffers. -/
abbrev Byte := BitVec 8

/-- A `u32`: a register of the window, a nonce, a target word. -/
abbrev Word := BitVec 32

/-- A `u64`: the PRNG state, HASHES_DONE. -/
abbrev DWord := BitVec 64

/-- A slot-select code: one entry of PERM (30_encoding.md R63). -/
abbrev Sel := BitVec 4

end Sys2Proof
end

