-- ==== Sys2Proof/Syntax.lean ====
section
/-! DEFINITION. The syntax of the PoW core: the rows of spec/opcode_table.json as one inductive, the three encoding
formats their words come in, the names of the register window, and the actions of the agents outside the sequencer. -/

namespace Sys2Proof

/-- The instructions, one constructor for each row of spec/opcode_table.json (30_encoding.md R61, R63, R65). -/
inductive Instr where
  -- format CMD: the word a host writes to CMD (R61, R62)
  | nop
  | deriveSeed
  | deriveHdr
  | hash
  | search
  | compare
  | clrf
  | reserved7
  | reserved8
  | reserved9
  | reservedA
  | reservedB
  | reservedC
  | reservedD
  | reservedE
  | sreset
  /-- any word with a bit of 31:4 set: `zero` is that field (not 0 in a well-formed term), `opc` bits 3:0 (R62) -/
  | reservedHighbits (zero : BitVec 28) (opc : BitVec 4)
  -- format SEL: the slot-select code that drives the 11-way mux (R63, R64)
  | blake512
  | bmw512
  | groestl512
  | skein512
  | jh512
  | keccak512
  | luffa512
  | cubehash512
  | shavite512
  | simd512
  | echo512
  | invalidB
  | invalidC
  | invalidD
  | invalidE
  | invalidF
  -- format ST: the sequencer state code (R65)
  | stIdle
  | stTlatch
  | stConv
  | stSeedgen
  | stPinit
  | stShuf
  | stLoopchk
  | stNwrite
  | stRound
  | stDlatch
  | stCmp1
  | stCmp2
  | stFoundx
  | stNinc
  | stExitnf
deriving DecidableEq, Repr

/-- A word of one of the three encoding formats, as the block meets it: the data of a CMD write (R60), an entry of
PERM (R63), the sequencer state register (R65). -/
inductive Encoded where
  | cmd (w : Word)
  | sel (c : Sel)
  | st (c : BitVec 5)
deriving DecidableEq, Repr

/-- The registers of the 1 KiB window, by name (10_state.md R32). -/
inductive Reg where
  | cmd
  | status
  | ctrl
  | nonceStart
  | nonceMax
  | nonce
  | winNonce
  | hashesLo
  | hashesHi
  | permLo
  | permHi
  | prngLo
  | prngHi
  | target (j : Fin 8)
  | seed (j : Fin 8)
  | hdr (k : Fin 20)
  | digestw (j : Fin 8)
  | etarget (j : Fin 8)
  | msgw (k : Fin 20)
  | bufaw (m : Fin 16)
  | bufbw (m : Fin 16)
deriving DecidableEq, Repr

/-- One bus transaction of the host (20_memory.md R41, R47, R48): a byte offset from the window's base, an access
width in bytes, and for a write the data. Only width 4 at a multiple of 4 inside the window is legal. -/
inductive BusAccess where
  | read (addr : Nat) (width : Nat)
  | write (addr : Nat) (width : Nat) (value : Word)
deriving DecidableEq, Repr

/-- One atomic action of an agent (00_scope.md R4, 20_memory.md R50). -/
inductive Action where
  /-- the sequencer is given its turn -/
  | tick
  /-- the host performs a bus transaction -/
  | host (a : BusAccess)
  /-- the cancel source drives the `cancel` pin (10_state.md R27) -/
  | cancel (level : Bool)
  /-- the reset source drives the `rst` pin (70_reset_and_hazards.md R210) -/
  | reset (level : Bool)
deriving DecidableEq, Repr

end Sys2Proof
end

