-- ==== Sys2Proof/WellFormed.lean ====
section
/-! DEFINITION. Which terms of `Instr` stand for an encoding. -/

namespace Sys2Proof

/-- A term of the reserved class must have a bit of 31:4 set (30_encoding.md R62); every other constructor has no
operand and stands for one word. -/
def Instr.wf : Instr → Bool
  | .reservedHighbits zero _ => zero != 0
  | _ => true

end Sys2Proof
end

