-- ==== Sys2Proof/Decode.lean ====
section
/-! DEFINITION. The decoder of the three formats (30_encoding.md R60 to R65) and the encoder, written from the same
tables. Every CMD word and every SEL code has a meaning; of the ST codes, 15 to 31 are rejected by name (R65). -/

namespace Sys2Proof

/-- Why a word is no instruction. -/
inductive DecodeError where
  /-- a state code 15..31, which no rule produces (30_encoding.md R65, 93_implementation_defined.md U12) -/
  | reservedStateCode (c : BitVec 5)
deriving DecidableEq, Repr

/-- The opcode map of format CMD for a word with ZERO = 0 (30_encoding.md R61). -/
def decodeOpc (opc : BitVec 4) : Instr :=
  match opc.toNat with
  | 0 => .nop
  | 1 => .deriveSeed
  | 2 => .deriveHdr
  | 3 => .hash
  | 4 => .search
  | 5 => .compare
  | 6 => .clrf
  | 7 => .reserved7
  | 8 => .reserved8
  | 9 => .reserved9
  | 10 => .reservedA
  | 11 => .reservedB
  | 12 => .reservedC
  | 13 => .reservedD
  | 14 => .reservedE
  | _ => .sreset

/-- Format CMD (30_encoding.md R60, R62): bits 31:4 must be 0, bits 3:0 are the opcode. -/
def decodeCmd (w : Word) : Instr :=
  if w.extractLsb' 4 28 = 0#28 then decodeOpc (w.extractLsb' 0 4)
  else .reservedHighbits (w.extractLsb' 4 28) (w.extractLsb' 0 4)

/-- Format SEL, total on its sixteen codes (30_encoding.md R63, R64). -/
def decodeSel (c : Sel) : Instr :=
  match c.toNat with
  | 0 => .blake512
  | 1 => .bmw512
  | 2 => .groestl512
  | 3 => .skein512
  | 4 => .jh512
  | 5 => .keccak512
  | 6 => .luffa512
  | 7 => .cubehash512
  | 8 => .shavite512
  | 9 => .simd512
  | 10 => .echo512
  | 11 => .invalidB
  | 12 => .invalidC
  | 13 => .invalidD
  | 14 => .invalidE
  | _ => .invalidF

/-- Format ST (30_encoding.md R65). -/
def decodeSt (c : BitVec 5) : Except DecodeError Instr :=
  match c.toNat with
  | 0 => .ok .stIdle
  | 1 => .ok .stTlatch
  | 2 => .ok .stConv
  | 3 => .ok .stSeedgen
  | 4 => .ok .stPinit
  | 5 => .ok .stShuf
  | 6 => .ok .stLoopchk
  | 7 => .ok .stNwrite
  | 8 => .ok .stRound
  | 9 => .ok .stDlatch
  | 10 => .ok .stCmp1
  | 11 => .ok .stCmp2
  | 12 => .ok .stFoundx
  | 13 => .ok .stNinc
  | 14 => .ok .stExitnf
  | _ => .error (.reservedStateCode c)

/-- The instruction a word of one of the three formats stands for. -/
def decode : Encoded → Except DecodeError Instr
  | .cmd w => .ok (decodeCmd w)
  | .sel c => .ok (decodeSel c)
  | .st c => decodeSt c

/-- The word of an instruction, from the tables of 30_encoding.md R61, R63, R65. -/
def encode : Instr → Encoded
  | .nop => .cmd 0x0#32
  | .deriveSeed => .cmd 0x1#32
  | .deriveHdr => .cmd 0x2#32
  | .hash => .cmd 0x3#32
  | .search => .cmd 0x4#32
  | .compare => .cmd 0x5#32
  | .clrf => .cmd 0x6#32
  | .reserved7 => .cmd 0x7#32
  | .reserved8 => .cmd 0x8#32
  | .reserved9 => .cmd 0x9#32
  | .reservedA => .cmd 0xA#32
  | .reservedB => .cmd 0xB#32
  | .reservedC => .cmd 0xC#32
  | .reservedD => .cmd 0xD#32
  | .reservedE => .cmd 0xE#32
  | .sreset => .cmd 0xF#32
  | .reservedHighbits zero opc => .cmd (zero ++ opc)
  | .blake512 => .sel 0x0#4
  | .bmw512 => .sel 0x1#4
  | .groestl512 => .sel 0x2#4
  | .skein512 => .sel 0x3#4
  | .jh512 => .sel 0x4#4
  | .keccak512 => .sel 0x5#4
  | .luffa512 => .sel 0x6#4
  | .cubehash512 => .sel 0x7#4
  | .shavite512 => .sel 0x8#4
  | .simd512 => .sel 0x9#4
  | .echo512 => .sel 0xA#4
  | .invalidB => .sel 0xB#4
  | .invalidC => .sel 0xC#4
  | .invalidD => .sel 0xD#4
  | .invalidE => .sel 0xE#4
  | .invalidF => .sel 0xF#4
  | .stIdle => .st 0#5
  | .stTlatch => .st 1#5
  | .stConv => .st 2#5
  | .stSeedgen => .st 3#5
  | .stPinit => .st 4#5
  | .stShuf => .st 5#5
  | .stLoopchk => .st 6#5
  | .stNwrite => .st 7#5
  | .stRound => .st 8#5
  | .stDlatch => .st 9#5
  | .stCmp1 => .st 10#5
  | .stCmp2 => .st 11#5
  | .stFoundx => .st 12#5
  | .stNinc => .st 13#5
  | .stExitnf => .st 14#5

/-- The word of spec/opcode_table.json with `nbits` bits and value `w`, in its format. The table gives CMD 32 bits,
SEL 4 and ST 5; rounded up to whole bytes SEL and ST both have 8 bits, and an 8-bit word is read as the state code it
is, or as the slot code where it is no state code (DESIGN CHOICE, safe: log 12). -/
def tableWord (nbits w : Nat) : Option Encoded :=
  if 2 ^ nbits ≤ w then none
  else if nbits = 4 then some (.sel (BitVec.ofNat 4 w))
  else if nbits = 5 then some (.st (BitVec.ofNat 5 w))
  else if nbits = 8 then
    if w < 15 then some (.st (BitVec.ofNat 5 w))
    else if w < 16 then some (.sel (BitVec.ofNat 4 w))
    else none
  else if nbits ≤ 32 then some (.cmd (BitVec.ofNat 32 w))
  else none

/-- The instruction the decoder reads from a row's word, for the host's table check. -/
def decodeTableWord (nbits w : Nat) : Option Instr :=
  match tableWord nbits w with
  | none => none
  | some e => (decode e).toOption

end Sys2Proof
end

