-- ==== Sys2Proof/Config.lean ====
section
/-! DEFINITION. What an instance of the block fixes and the spec leaves open (00_scope.md R3): constants with no body,
so that no proof can rest on a value of theirs. -/

namespace Sys2Proof.Config

/-- The seed hash: 32 bytes to 32 bytes, total, pure, otherwise uninterpreted (00_scope.md R3, 45_primitives.md R180).
DEDUCED, safe: log 9. -/
opaque SHA256 : Vector Byte 32 → Vector Byte 32

/-- The eleven 512-bit units `CF[0..10]`: byte string to 64 bytes, total, pure, otherwise uninterpreted
(00_scope.md R3, 45_primitives.md R181). DEDUCED, safe: log 9. -/
opaque CF : Fin 11 → List Byte → Vector Byte 64

/-- `BENCH_MSW`, the word benchmark mode puts into ET[0]; OPEN in the spec (92_eei_decisions.md D14).
DEDUCED, safe: log 9. -/
opaque benchMsw : Word

end Sys2Proof.Config
end

