-- ==== Sys2Proof/Machine/State.lean ====
section
/-! DEFINITION. The state of the PoW core as plain data (10_state.md), its value after reset (10_state.md R33), and the
names of the ways a step can stop. -/

namespace Sys2Proof.Machine

/-- The fifteen sequencer states, the program-counter analogue ST (10_state.md R28, 30_encoding.md R65). Codes 15..31
are produced by no rule and have no value here. DEDUCED, safe: log 8. -/
inductive SeqState where
  | idle
  | tlatch
  | conv
  | seedgen
  | pinit
  | shuf
  | loopchk
  | nwrite
  | round
  | dlatch
  | cmp1
  | cmp2
  | foundx
  | ninc
  | exitnf
deriving DecidableEq, Repr

/-- The values of OP (10_state.md R29): the opcode of the run command in progress or last completed, `none` (0) after
reset. DEDUCED, safe: log 8. -/
inductive RunOp where
  | none
  | deriveSeed
  | deriveHdr
  | hash
  | search
  | compare
deriving DecidableEq, Repr

/-- What the block answered to the last bus transaction (10_state.md R31: read data and error response). The model's
own field type: log 3. -/
inductive BusResp where
  /-- no transaction yet -/
  | none
  /-- the data of a read -/
  | data (v : Word)
  /-- a write was taken by the bus (whether or not a register kept it) -/
  | ack
  /-- the bus error of 20_memory.md R41 -/
  | error (addr : Nat)
deriving DecidableEq, Repr

/-- The state of one instance of the block and of the pins that drive it. -/
structure State where
  /-- HDR[0..19] (R10) -/
  hdr : Vector Word 20
  /-- TARGET[0..7] (R11) -/
  target : Vector Word 8
  /-- NONCE_START (R12) -/
  nonceStart : Word
  /-- NONCE_MAX (R12) -/
  nonceMax : Word
  /-- CTRL bit 0, BENCH (R13) -/
  bench : Bool
  /-- SB[0..31] (R14) -/
  sb : Vector Byte 32
  /-- PRNG (R15) -/
  prng : DWord
  /-- I, a 4-bit counter in 0..10 (R16; log 8) -/
  i : Fin 11
  /-- PERM[0..10] (R17) -/
  perm : Vector Sel 11
  /-- MSG[0..79] (R18) -/
  msg : Vector Byte 80
  /-- BUFA[0..63] (R19) -/
  bufa : Vector Byte 64
  /-- BUFB[0..63] (R19) -/
  bufb : Vector Byte 64
  /-- CUR: false = BUFA current, true = BUFB current (R19) -/
  cur : Bool
  /-- R, a 4-bit counter in 0..10 (R20; log 8) -/
  r : Fin 11
  /-- DIGEST[0..31] (R21) -/
  digest : Vector Byte 32
  /-- ET[0..7] (R22) -/
  et : Vector Word 8
  /-- NONCE (R23) -/
  nonce : Word
  /-- WIN_NONCE (R24) -/
  winNonce : Word
  /-- HASHES_DONE (R25) -/
  hashesDone : DWord
  /-- BUSY (R26) -/
  busy : Bool
  /-- DONE (R26) -/
  done : Bool
  /-- FOUND (R26) -/
  found : Bool
  /-- LE (R26) -/
  le : Bool
  /-- ERR, sticky (R26) -/
  err : Bool
  /-- FALLBACK, sticky (R26) -/
  fallback : Bool
  /-- ST (R28) -/
  st : SeqState
  /-- OP (R29) -/
  op : RunOp
  /-- level of the input pin `cancel`; not a register of the block (R27; log 2) -/
  cancel : Bool
  /-- level of the input pin `rst` (R31; log 2) -/
  rst : Bool
  /-- the model's own: the external agents' actions still to come, in their order (log 1) -/
  sched : List Action
  /-- the model's own: the answer to the last bus transaction (log 3) -/
  resp : BusResp
deriving DecidableEq, Repr

/-- The fault of a bus transaction. -/
inductive Fault where
  /-- Raised by a host access that is not 32 bits wide at a multiple of 4 inside 0x000..0x3FF (20_memory.md R41). The
  block goes on: the host's step turns it into an error answer and no step of the machine ends in it. Safe: log 3. -/
  | busError (addr : Nat)
deriving DecidableEq, Repr

/-- The refusals. -/
inductive Refusal where
  /-- Raised by `exec` for an instruction whose meaning is not written yet; no arm raises it. Safe. -/
  | notModelled (mnemonic : String)
  /-- Raised by the sequencer's fetch if ST held a code 15..31 (30_encoding.md R65); ST has no such value, so no step
  raises it. Safe. -/
  | reservedStateCode (c : BitVec 5)
deriving DecidableEq, Repr

/-- The outcome of a step or of a transaction. -/
abbrev Outcome := Host.Outcome State Fault Refusal

/-- The machine right after reset (10_state.md R33). The levels of `cancel` and `rst`, the empty schedule and the empty
answer are the model's (DESIGN CHOICE, unsafe: log 1, log 2, log 3). -/
def State.reset : State where
  hdr := Vector.replicate 20 0
  target := Vector.replicate 8 0
  nonceStart := 0
  nonceMax := 0
  bench := false
  sb := Vector.replicate 32 0
  prng := 0
  i := 0
  perm := Vector.ofFn fun j => BitVec.ofNat 4 j.val
  msg := Vector.replicate 80 0
  bufa := Vector.replicate 64 0
  bufb := Vector.replicate 64 0
  cur := false
  r := 0
  digest := Vector.replicate 32 0
  et := Vector.replicate 8 0
  nonce := 0
  winNonce := 0
  hashesDone := 0
  busy := false
  done := false
  found := false
  le := false
  err := false
  fallback := false
  st := .idle
  op := .none
  cancel := false
  rst := false
  sched := []
  resp := .none

end Sys2Proof.Machine
end

