-- ==== Sys2Proof/Machine/Operands.lean ====
section
/-! DEFINITION. The operand forms: the five byte-order conventions of 20_memory.md (R42 to R46), the fixed windows of the
internal buffers (R40), and the packing of PERM (30_encoding.md R66). -/

namespace Sys2Proof.Machine

/-- `BE32(b0,b1,b2,b3)`: the first byte is the most significant (00_scope.md section 6). -/
def be32 (b0 b1 b2 b3 : Byte) : Word := b0 ++ b1 ++ b2 ++ b3

/-- Byte `j` (0..3) of `BE32bytes(v)` (00_scope.md section 6). -/
def be32Byte (v : Word) (j : Nat) : Byte := v.extractLsb' (8 * (3 - j)) 8

/-- `BE32(B[a..a+3])`, the big-endian word at byte `a` of a buffer (20_memory.md R42). -/
def wordAt {n : Nat} (buf : Vector Byte n) (a : Nat) (h : a + 3 < n := by omega) : Word :=
  be32 buf[a] buf[a + 1] buf[a + 2] buf[a + 3]

/-- `B[a..a+3] <- BE32bytes(v)`, every other byte kept (20_memory.md R42, R43). -/
def setWordAt {n : Nat} (buf : Vector Byte n) (a : Nat) (v : Word) : Vector Byte n :=
  Vector.ofFn fun b : Fin n => if a ≤ b.val ∧ b.val < a + 4 then be32Byte v (b.val - a) else buf[b]

/-- The window `B[a..a+len-1]` of a buffer (20_memory.md R40). -/
def window {n : Nat} (buf : Vector Byte n) (a len : Nat) (h : a + len ≤ n := by omega) : Vector Byte len :=
  Vector.ofFn fun j : Fin len => buf[a + j.val]

/-- `LE64(SB[8j..8j+7])`: the first byte is the least significant (20_memory.md R44). -/
def le64 (sb : Vector Byte 32) (j : Fin 4) : DWord :=
  sb[8 * j.val + 7] ++ sb[8 * j.val + 6] ++ sb[8 * j.val + 5] ++ sb[8 * j.val + 4] ++
    sb[8 * j.val + 3] ++ sb[8 * j.val + 2] ++ sb[8 * j.val + 1] ++ sb[8 * j.val]

/-- The message after the first `n` header words are serialised big-endian (20_memory.md R43, 40_permutation.md R82). -/
def serialise (n : Nat) (hdr : Vector Word 20) (msg : Vector Byte 80) : Vector Byte 80 :=
  Vector.ofFn fun b : Fin 80 => if b.val / 4 < n then be32Byte hdr[b.val / 4] (b.val % 4) else msg[b]

/-- `DW[j]`, word `j` of the digest read as a big-endian 256-bit number, `DW[0]` most significant (20_memory.md R46). -/
def dw (digest : Vector Byte 32) (j : Fin 8) : Word := wordAt digest (4 * j.val)

/-- PERM_LO: PERM[j] in bits 4j+3:4j, j = 0..7 (30_encoding.md R66). -/
def permLo (p : Vector Sel 11) : Word := p[7] ++ p[6] ++ p[5] ++ p[4] ++ p[3] ++ p[2] ++ p[1] ++ p[0]

/-- PERM_HI: PERM[8], PERM[9], PERM[10] from bit 0 up, bits 31:12 zero (30_encoding.md R66). -/
def permHi (p : Vector Sel 11) : Word := 0#20 ++ p[10] ++ p[9] ++ p[8]

/-- The identity order PERM[j] = j (40_permutation.md R84). -/
def identityPerm : Vector Sel 11 := Vector.ofFn fun j => BitVec.ofNat 4 j.val

end Sys2Proof.Machine
end

