-- ==== Sys2Proof/Machine/Flags.lean ====
section
/-! DEFINITION. The flag and counter computations: the comparator's verdict (43_comparator.md R152, R153), the work count
(42_search.md R125, R127), the codes of ST and OP, and the packed registers STATUS and CTRL (10_state.md R13, R30). -/

namespace Sys2Proof.Machine

/-- The comparison of digest words with target words, most significant pair first: the first differing pair decides,
all pairs equal passes (43_comparator.md R153). -/
def leWords : List (Word × Word) → Bool
  | [] => true
  | (d, t) :: rest => if d < t then true else if t < d then false else leWords rest

/-- The full eight-word comparison of CMP2 (43_comparator.md R153). -/
def fullCompare (digest : Vector Byte 32) (et : Vector Word 8) : Bool :=
  leWords (List.ofFn fun j : Fin 8 => (dw digest j, et[j]))

/-- The one-word pre-check of CMP1: DW[0] <= ET[0] (43_comparator.md R152). -/
def preCheck (digest : Vector Byte 32) (et : Vector Word 8) : Bool := dw digest 0 ≤ et[0]

/-- HASHES_DONE on success: the 32-bit difference, zero-extended (42_search.md R125). -/
def hashesFound (nonce start : Word) : DWord := (nonce - start).setWidth 64

/-- HASHES_DONE on a failing exit: the same, plus 1 on 64 bits (42_search.md R127). -/
def hashesNotFound (nonce start : Word) : DWord := (nonce - start).setWidth 64 + 1

/-- The 5-bit code of a sequencer state (30_encoding.md R65). -/
def seqCode : SeqState → BitVec 5
  | .idle => 0
  | .tlatch => 1
  | .conv => 2
  | .seedgen => 3
  | .pinit => 4
  | .shuf => 5
  | .loopchk => 6
  | .nwrite => 7
  | .round => 8
  | .dlatch => 9
  | .cmp1 => 10
  | .cmp2 => 11
  | .foundx => 12
  | .ninc => 13
  | .exitnf => 14

/-- The sequencer state of a code, none for 15..31 (30_encoding.md R65). -/
def seqOfCode (c : BitVec 5) : Option SeqState :=
  match c.toNat with
  | 0 => some .idle
  | 1 => some .tlatch
  | 2 => some .conv
  | 3 => some .seedgen
  | 4 => some .pinit
  | 5 => some .shuf
  | 6 => some .loopchk
  | 7 => some .nwrite
  | 8 => some .round
  | 9 => some .dlatch
  | 10 => some .cmp1
  | 11 => some .cmp2
  | 12 => some .foundx
  | 13 => some .ninc
  | 14 => some .exitnf
  | _ => none

/-- The 4-bit value of OP (10_state.md R29, 30_encoding.md R61). -/
def opCode : RunOp → BitVec 4
  | .none => 0
  | .deriveSeed => 1
  | .deriveHdr => 2
  | .hash => 3
  | .search => 4
  | .compare => 5

/-- STATUS (10_state.md R30): from bit 31 down, reserved, I, R, OP, reserved, STATE, reserved, CUR, FALLBACK, ERR, LE,
FOUND, DONE, BUSY. -/
def statusWord (s : State) : Word :=
  0#4 ++ BitVec.ofNat 4 s.i.val ++ BitVec.ofNat 4 s.r.val ++ opCode s.op ++ 0#3 ++ seqCode s.st ++ 0#1 ++
    BitVec.ofBool s.cur ++ BitVec.ofBool s.fallback ++ BitVec.ofBool s.err ++ BitVec.ofBool s.le ++
    BitVec.ofBool s.found ++ BitVec.ofBool s.done ++ BitVec.ofBool s.busy

/-- CTRL as read: bit 0 BENCH, bits 31:1 zero (10_state.md R13). -/
def ctrlWord (bench : Bool) : Word := 0#31 ++ BitVec.ofBool bench

/-- The output pins are level copies of the STATUS bits (10_state.md R31). -/
def pinBusy (s : State) : Bool := s.busy

/-- The output pin `done` (10_state.md R31). -/
def pinDone (s : State) : Bool := s.done

/-- The output pin `found` (10_state.md R31). -/
def pinFound (s : State) : Bool := s.found

end Sys2Proof.Machine
end

