-- ==== Sys2Proof/Machine/Ops.lean ====
section
/-! DEFINITION. The operations the meanings share: starting and completing a command (44_control.md R165, R171), refusing
a write (60_exceptions.md R191), reset (70_reset_and_hazards.md R210), the PRNG step (40_permutation.md R85) and the mux
decode (41_hashchain.md R101). The block has no trap mechanism (60_exceptions.md R197), so there is no exception entry
and no return here: the abnormal events are `setErr`, the FALLBACK flag of `runRound`, and the bus error of Bus.lean. -/

namespace Sys2Proof.Machine

/-- `Start(op, S)`: OP <- op; BUSY <- 1; DONE, FOUND, LE <- 0; ST <- S (44_control.md R165). -/
def start (op : RunOp) (st : SeqState) (s : State) : State :=
  { s with op := op, busy := true, done := false, found := false, le := false, st := st }

/-- `Complete()`: BUSY <- 0; DONE <- 1; ST <- IDLE (44_control.md R171). -/
def complete (s : State) : State :=
  { s with busy := false, done := true, st := .idle }

/-- ERR <- 1 and nothing else: a refused write (60_exceptions.md R191). -/
def setErr (s : State) : State := { s with err := true }

/-- Every piece of the block's state takes its reset value (10_state.md R33, 70_reset_and_hazards.md R210). The pins are
not state of the block, and the schedule and the last bus answer are the model's own: they stay. -/
def resetBlock (s : State) : State :=
  { State.reset with cancel := s.cancel, rst := s.rst, sched := s.sched, resp := s.resp }

/-- A CMD write: refused with ERR while BUSY (44_control.md R166), else the command's own effect in the one step of the
write (44_control.md R165). -/
def acceptCmd (effect : State → State) (s : State) : Host.Outcome State Fault Refusal :=
  if s.busy then .next (setErr s) else .next (effect s)

/-- `xorshift64`: shifts 13 left, 7 right, 17 left, each applied to the previous value (40_permutation.md R85). -/
def xorshift64 (x : DWord) : DWord :=
  let a := x ^^^ (x <<< 13)
  let b := a ^^^ (a >>> 7)
  b ^^^ (b <<< 17)

/-- `state mod (I + 1)`, unsigned, on the whole 64-bit value (40_permutation.md R86). -/
def shufIndex (x : DWord) (i : Fin 11) : Fin 11 :=
  ⟨x.toNat % (i.val + 1), Nat.lt_of_lt_of_le (Nat.mod_lt _ (Nat.succ_pos _)) i.isLt⟩

/-- The unit a slot code selects: CF[sel] for 0..10, CF[0] for 11..15 (41_hashchain.md R101). -/
def slotUnit (sel : Sel) : Fin 11 := if h : sel.toNat < 11 then ⟨sel.toNat, h⟩ else 0

/-- Whether a slot code is out of range and sets FALLBACK (41_hashchain.md R101). -/
def slotInvalid (sel : Sel) : Bool := 10 < sel.toNat

end Sys2Proof.Machine
end

