-- ==== Sys2Proof/Machine/Comparator.lean ====
section
/-! DEFINITION. DTC, the difficulty target comparator: command COMPARE, steps TLATCH, CMP1 and CMP2
(43_comparator.md); and IDLE, the state with no step (44_control.md R172). -/

namespace Sys2Proof.Machine

/-- COMPARE: Start(5, TLATCH) (43_comparator.md R155). -/
def execCompare (s : State) : Host.Outcome State Fault Refusal := acceptCmd (start .compare .tlatch) s

/-- The effective target: TARGET with word 0 replaced by BENCH_MSW in benchmark mode (43_comparator.md R150). -/
def effectiveTarget (bench : Bool) (target : Vector Word 8) : Vector Word 8 :=
  if bench then target.set 0 Config.benchMsw else target

/-- Step TLATCH: latch the effective target; SEARCH goes on to CONV, COMPARE to CMP1 (43_comparator.md R150). With
another OP, with which TLATCH is never reached, ST is not written and the sequencer is stuck there (DESIGN CHOICE, unsafe:
log 7). -/
def execStTlatch (s : State) : Host.Outcome State Fault Refusal :=
  let t := { s with et := effectiveTarget s.bench s.target }
  match s.op with
  | .search => .next { t with st := .conv }
  | .compare => .next { t with st := .cmp1 }
  | .none | .deriveSeed | .deriveHdr | .hash => .next t

/-- Where a finished comparison goes: COMPARE completes, SEARCH goes to `next` (43_comparator.md R152, R153). With another
OP, with which the comparator is never reached, ST is not written and the sequencer is stuck there (DESIGN CHOICE, unsafe:
log 7). -/
def compareDone (next : SeqState) (s : State) : State :=
  match s.op with
  | .search => { s with st := next }
  | .compare => complete s
  | .none | .deriveSeed | .deriveHdr | .hash => s

/-- Step CMP1: the one-word pre-check; CMP2 is skipped when it fails (43_comparator.md R152). -/
def execStCmp1 (s : State) : Host.Outcome State Fault Refusal :=
  if preCheck s.digest s.et then .next { s with st := .cmp2 }
  else .next (compareDone .ninc { s with le := false })

/-- Step CMP2: the full comparison, its verdict in LE (43_comparator.md R153). -/
def execStCmp2 (s : State) : Host.Outcome State Fault Refusal :=
  let pass := fullCompare s.digest s.et
  .next (compareDone (if pass then .foundx else .ninc) { s with le := pass })

/-- IDLE: the sequencer has no step and nothing changes (44_control.md R172). -/
def execStIdle (s : State) : Host.Outcome State Fault Refusal := .next s

end Sys2Proof.Machine
end

