-- ==== Sys2Proof/Machine/Control.lean ====
section
/-! DEFINITION. CTL: the immediate commands and the reserved words (44_control.md R165 to R170). -/

namespace Sys2Proof.Machine

/-- NOP: when accepted, no state changes at all (44_control.md R167). -/
def execNop (s : State) : Host.Outcome State Fault Refusal := acceptCmd (fun s => s) s

/-- CLRF: when accepted, ERR <- 0 and FALLBACK <- 0, nothing else (44_control.md R168). -/
def execClrf (s : State) : Host.Outcome State Fault Refusal :=
  acceptCmd (fun s => { s with err := false, fallback := false }) s

/-- SRESET: when accepted, every piece of state takes its reset value (44_control.md R169, 70_reset_and_hazards.md R211). -/
def execSreset (s : State) : Host.Outcome State Fault Refusal := acceptCmd resetBlock s

/-- Reserved opcode 0x7: ERR <- 1, nothing else (44_control.md R170, 30_encoding.md R62). -/
def execReserved7 (s : State) : Host.Outcome State Fault Refusal := acceptCmd setErr s

/-- Reserved opcode 0x8: ERR <- 1, nothing else (44_control.md R170, 30_encoding.md R62). -/
def execReserved8 (s : State) : Host.Outcome State Fault Refusal := acceptCmd setErr s

/-- Reserved opcode 0x9: ERR <- 1, nothing else (44_control.md R170, 30_encoding.md R62). -/
def execReserved9 (s : State) : Host.Outcome State Fault Refusal := acceptCmd setErr s

/-- Reserved opcode 0xA: ERR <- 1, nothing else (44_control.md R170, 30_encoding.md R62). -/
def execReservedA (s : State) : Host.Outcome State Fault Refusal := acceptCmd setErr s

/-- Reserved opcode 0xB: ERR <- 1, nothing else (44_control.md R170, 30_encoding.md R62). -/
def execReservedB (s : State) : Host.Outcome State Fault Refusal := acceptCmd setErr s

/-- Reserved opcode 0xC: ERR <- 1, nothing else (44_control.md R170, 30_encoding.md R62). -/
def execReservedC (s : State) : Host.Outcome State Fault Refusal := acceptCmd setErr s

/-- Reserved opcode 0xD: ERR <- 1, nothing else (44_control.md R170, 30_encoding.md R62). -/
def execReservedD (s : State) : Host.Outcome State Fault Refusal := acceptCmd setErr s

/-- Reserved opcode 0xE: ERR <- 1, nothing else (44_control.md R170, 30_encoding.md R62). -/
def execReservedE (s : State) : Host.Outcome State Fault Refusal := acceptCmd setErr s

/-- A word with a bit of 31:4 set, whatever its opcode bits: ERR <- 1, nothing else (44_control.md R170). -/
def execReservedHighbits (_zero : BitVec 28) (_opc : BitVec 4) (s : State) : Host.Outcome State Fault Refusal :=
  acceptCmd setErr s

end Sys2Proof.Machine
end

