-- ==== Sys2Proof/Machine/HashChain.lean ====
section
/-! DEFINITION. HCE, the hash-chain executor: command HASH, the 11-way mux, steps ROUND and DLATCH (41_hashchain.md). The
meaning of a slot code is the ROUND step with the mux at that code (DEDUCED, safe: log 5). -/

namespace Sys2Proof.Machine

/-- HASH: Start(3, CONV) (41_hashchain.md R100). -/
def execHash (s : State) : Host.Outcome State Fault Refusal := acceptCmd (start .hash .conv) s

/-- One round with the unit `f`: round 0 reads the 80 bytes of MSG and writes BUFA; rounds 1..10 read the current buffer
and write the other; after round 10 the chain goes to DLATCH with R left at 10 (41_hashchain.md R102, R103). -/
def runRound (f : List Byte → Vector Byte 64) (s : State) : State :=
  if s.r = 0 then
    { s with bufa := f s.msg.toList, cur := false, r := 1, st := .round }
  else
    let t := if s.cur then { s with bufa := f s.bufb.toList, cur := false }
      else { s with bufb := f s.bufa.toList, cur := true }
    if h : s.r.val = 10 then { t with st := .dlatch }
    else { t with r := ⟨s.r.val + 1, by omega⟩, st := .round }

/-- The ROUND step with the mux at code `sel`: `SlotFn(sel)` and its FALLBACK (41_hashchain.md R101). -/
def roundBySel (sel : Sel) (s : State) : State :=
  runRound (Config.CF (slotUnit sel)) { s with fallback := s.fallback || slotInvalid sel }

/-- Slot 0: the round runs CF[0] = Blake-512 (30_encoding.md R63, 41_hashchain.md R101). -/
def execBlake512 (s : State) : Host.Outcome State Fault Refusal := .next (roundBySel 0x0 s)

/-- Slot 1: the round runs CF[1] = BMW-512 (30_encoding.md R63, 41_hashchain.md R101). -/
def execBmw512 (s : State) : Host.Outcome State Fault Refusal := .next (roundBySel 0x1 s)

/-- Slot 2: the round runs CF[2] = Groestl-512 (30_encoding.md R63, 41_hashchain.md R101). -/
def execGroestl512 (s : State) : Host.Outcome State Fault Refusal := .next (roundBySel 0x2 s)

/-- Slot 3: the round runs CF[3] = Skein-512 (30_encoding.md R63, 41_hashchain.md R101). -/
def execSkein512 (s : State) : Host.Outcome State Fault Refusal := .next (roundBySel 0x3 s)

/-- Slot 4: the round runs CF[4] = JH-512 (30_encoding.md R63, 41_hashchain.md R101). -/
def execJh512 (s : State) : Host.Outcome State Fault Refusal := .next (roundBySel 0x4 s)

/-- Slot 5: the round runs CF[5] = Keccak-512 (30_encoding.md R63, 41_hashchain.md R101). -/
def execKeccak512 (s : State) : Host.Outcome State Fault Refusal := .next (roundBySel 0x5 s)

/-- Slot 6: the round runs CF[6] = Luffa-512 (30_encoding.md R63, 41_hashchain.md R101). -/
def execLuffa512 (s : State) : Host.Outcome State Fault Refusal := .next (roundBySel 0x6 s)

/-- Slot 7: the round runs CF[7] = CubeHash-512 (30_encoding.md R63, 41_hashchain.md R101). -/
def execCubehash512 (s : State) : Host.Outcome State Fault Refusal := .next (roundBySel 0x7 s)

/-- Slot 8: the round runs CF[8] = SHAvite-512 (30_encoding.md R63, 41_hashchain.md R101). -/
def execShavite512 (s : State) : Host.Outcome State Fault Refusal := .next (roundBySel 0x8 s)

/-- Slot 9: the round runs CF[9] = SIMD-512 (30_encoding.md R63, 41_hashchain.md R101). -/
def execSimd512 (s : State) : Host.Outcome State Fault Refusal := .next (roundBySel 0x9 s)

/-- Slot 10: the round runs CF[10] = ECHO-512 (30_encoding.md R63, 41_hashchain.md R101). -/
def execEcho512 (s : State) : Host.Outcome State Fault Refusal := .next (roundBySel 0xA s)

/-- Slot code 0xB, out of range: the round runs CF[0] and sets FALLBACK (30_encoding.md R64, 41_hashchain.md R101). -/
def execInvalidB (s : State) : Host.Outcome State Fault Refusal := .next (roundBySel 0xB s)

/-- Slot code 0xC, out of range: the round runs CF[0] and sets FALLBACK (30_encoding.md R64, 41_hashchain.md R101). -/
def execInvalidC (s : State) : Host.Outcome State Fault Refusal := .next (roundBySel 0xC s)

/-- Slot code 0xD, out of range: the round runs CF[0] and sets FALLBACK (30_encoding.md R64, 41_hashchain.md R101). -/
def execInvalidD (s : State) : Host.Outcome State Fault Refusal := .next (roundBySel 0xD s)

/-- Slot code 0xE, out of range: the round runs CF[0] and sets FALLBACK (30_encoding.md R64, 41_hashchain.md R101). -/
def execInvalidE (s : State) : Host.Outcome State Fault Refusal := .next (roundBySel 0xE s)

/-- Slot code 0xF, out of range: the round runs CF[0] and sets FALLBACK (30_encoding.md R64, 41_hashchain.md R101). -/
def execInvalidF (s : State) : Host.Outcome State Fault Refusal := .next (roundBySel 0xF s)

/-- Step ROUND: the round with the mux at PERM[R] (41_hashchain.md R102, R103). -/
def execStRound (s : State) : Host.Outcome State Fault Refusal := .next (roundBySel s.perm[s.r] s)

/-- Step DLATCH: the first 32 bytes of the current buffer into DIGEST; HASH completes, SEARCH goes on to CMP1
(41_hashchain.md R104). With another OP, with which DLATCH is never reached, ST is not written and the sequencer
is stuck there (DESIGN CHOICE, unsafe: log 7). -/
def execStDlatch (s : State) : Host.Outcome State Fault Refusal :=
  let t := { s with digest := if s.cur then window s.bufb 0 32 else window s.bufa 0 32 }
  match s.op with
  | .hash => .next (complete t)
  | .search => .next { t with st := .cmp1 }
  | .none | .deriveSeed | .deriveHdr | .compare => .next t

end Sys2Proof.Machine
end

