-- ==== Sys2Proof/Machine/Permutation.lean ====
section
/-! DEFINITION. PG, the permutation generator: commands DERIVE_SEED and DERIVE_HDR, steps CONV, SEEDGEN, PINIT and SHUF
(40_permutation.md). -/

namespace Sys2Proof.Machine

/-- DERIVE_SEED: Start(1, PINIT) (40_permutation.md R80). -/
def execDeriveSeed (s : State) : Host.Outcome State Fault Refusal := acceptCmd (start .deriveSeed .pinit) s

/-- DERIVE_HDR: Start(2, CONV) (40_permutation.md R81). -/
def execDeriveHdr (s : State) : Host.Outcome State Fault Refusal := acceptCmd (start .deriveHdr .conv) s

/-- Step CONV: 19 header words for SEARCH, else all twenty, big-endian into MSG (40_permutation.md R82). -/
def execStConv (s : State) : Host.Outcome State Fault Refusal :=
  .next { s with msg := serialise (if s.op = .search then 19 else 20) s.hdr s.msg, st := .seedgen }

/-- Step SEEDGEN: SB <- SHA256(MSG[4..35]) (40_permutation.md R83). -/
def execStSeedgen (s : State) : Host.Outcome State Fault Refusal :=
  .next { s with sb := Config.SHA256 (window s.msg 4 32), st := .pinit }

/-- Step PINIT: fold the seed into PRNG, PERM <- identity, I <- 10 (40_permutation.md R84). -/
def execStPinit (s : State) : Host.Outcome State Fault Refusal :=
  .next { s with
    prng := le64 s.sb 0 ^^^ le64 s.sb 1 ^^^ le64 s.sb 2 ^^^ le64 s.sb 3
    perm := identityPerm
    i := 10
    st := .shuf }

/-- Where the last SHUF step goes, by OP (40_permutation.md R86). The rule names no successor for OP = 0 or COMPARE, with
which SHUF is never reached: ST is then not written and the sequencer is stuck there (DESIGN CHOICE, unsafe: log 7). -/
def shufDone (s : State) : State :=
  match s.op with
  | .deriveSeed | .deriveHdr => complete s
  | .hash => { s with r := 0, st := .round }
  | .search => { s with st := .loopchk }
  | .none | .compare => s

/-- Step SHUF: one Fisher-Yates iteration for i = I, in 10..1 (40_permutation.md R86). No step is performed with I = 0:
a state with ST = SHUF and I = 0, which no run reaches, is stuck: nothing changes (DESIGN CHOICE, unsafe: log 7). -/
def execStShuf (s : State) : Host.Outcome State Fault Refusal :=
  if s.i = 0 then .next s
  else
    let x := xorshift64 s.prng
    let t := { s with
      prng := x
      perm := s.perm.swap s.i.val (shufIndex x s.i).val
      i := ⟨s.i.val - 1, by omega⟩ }
    if s.i = 1 then .next (shufDone t) else .next { t with st := .shuf }

end Sys2Proof.Machine
end

