-- ==== Sys2Proof/Machine/Search.lean ====
section
/-! DEFINITION. NSS, the nonce-search state machine: command SEARCH, steps LOOPCHK, NWRITE, FOUNDX, NINC and EXITNF
(42_search.md). -/

namespace Sys2Proof.Machine

/-- SEARCH: Start(4, TLATCH), NONCE <- NONCE_START, WIN_NONCE and HASHES_DONE <- 0 (42_search.md R120). -/
def execSearch (s : State) : Host.Outcome State Fault Refusal :=
  acceptCmd (fun s => { start .search .tlatch s with nonce := s.nonceStart, winNonce := 0, hashesDone := 0 }) s

/-- Step LOOPCHK: go on while NONCE < NONCE_MAX, unsigned, and `cancel` reads 0 now (42_search.md R122). -/
def execStLoopchk (s : State) : Host.Outcome State Fault Refusal :=
  .next { s with st := if s.nonce < s.nonceMax ∧ s.cancel = false then .nwrite else .exitnf }

/-- Step NWRITE: the nonce big-endian into MSG[76..79], R <- 0 (42_search.md R123, 30_encoding.md R67). -/
def execStNwrite (s : State) : Host.Outcome State Fault Refusal :=
  .next { s with msg := setWordAt s.msg 76 s.nonce, r := 0, st := .round }

/-- Step FOUNDX: the first-match exit (42_search.md R125). -/
def execStFoundx (s : State) : Host.Outcome State Fault Refusal :=
  .next (complete { s with winNonce := s.nonce, found := true, hashesDone := hashesFound s.nonce s.nonceStart })

/-- Step NINC: NONCE <- NONCE + 1 (42_search.md R126). -/
def execStNinc (s : State) : Host.Outcome State Fault Refusal :=
  .next { s with nonce := s.nonce + 1, st := .loopchk }

/-- Step EXITNF: the exhaustion or cancellation exit (42_search.md R127). -/
def execStExitnf (s : State) : Host.Outcome State Fault Refusal :=
  .next (complete { s with found := false, hashesDone := hashesNotFound s.nonce s.nonceStart })

end Sys2Proof.Machine
end

