-- ==== Sys2Proof/Machine/Dispatch.lean ====
section
/-! DEFINITION. The dispatch of every instruction to its meaning. -/

namespace Sys2Proof.Machine

def exec (i : Instr) (s : State) : Host.Outcome State Fault Refusal :=
  match i with
  | .nop => Sys2Proof.Machine.execNop s
  | .deriveSeed => Sys2Proof.Machine.execDeriveSeed s
  | .deriveHdr => Sys2Proof.Machine.execDeriveHdr s
  | .hash => Sys2Proof.Machine.execHash s
  | .search => Sys2Proof.Machine.execSearch s
  | .compare => Sys2Proof.Machine.execCompare s
  | .clrf => Sys2Proof.Machine.execClrf s
  | .reserved7 => Sys2Proof.Machine.execReserved7 s
  | .reserved8 => Sys2Proof.Machine.execReserved8 s
  | .reserved9 => Sys2Proof.Machine.execReserved9 s
  | .reservedA => Sys2Proof.Machine.execReservedA s
  | .reservedB => Sys2Proof.Machine.execReservedB s
  | .reservedC => Sys2Proof.Machine.execReservedC s
  | .reservedD => Sys2Proof.Machine.execReservedD s
  | .reservedE => Sys2Proof.Machine.execReservedE s
  | .sreset => Sys2Proof.Machine.execSreset s
  | .reservedHighbits zero opc => Sys2Proof.Machine.execReservedHighbits zero opc s
  | .blake512 => Sys2Proof.Machine.execBlake512 s
  | .bmw512 => Sys2Proof.Machine.execBmw512 s
  | .groestl512 => Sys2Proof.Machine.execGroestl512 s
  | .skein512 => Sys2Proof.Machine.execSkein512 s
  | .jh512 => Sys2Proof.Machine.execJh512 s
  | .keccak512 => Sys2Proof.Machine.execKeccak512 s
  | .luffa512 => Sys2Proof.Machine.execLuffa512 s
  | .cubehash512 => Sys2Proof.Machine.execCubehash512 s
  | .shavite512 => Sys2Proof.Machine.execShavite512 s
  | .simd512 => Sys2Proof.Machine.execSimd512 s
  | .echo512 => Sys2Proof.Machine.execEcho512 s
  | .invalidB => Sys2Proof.Machine.execInvalidB s
  | .invalidC => Sys2Proof.Machine.execInvalidC s
  | .invalidD => Sys2Proof.Machine.execInvalidD s
  | .invalidE => Sys2Proof.Machine.execInvalidE s
  | .invalidF => Sys2Proof.Machine.execInvalidF s
  | .stIdle => Sys2Proof.Machine.execStIdle s
  | .stTlatch => Sys2Proof.Machine.execStTlatch s
  | .stConv => Sys2Proof.Machine.execStConv s
  | .stSeedgen => Sys2Proof.Machine.execStSeedgen s
  | .stPinit => Sys2Proof.Machine.execStPinit s
  | .stShuf => Sys2Proof.Machine.execStShuf s
  | .stLoopchk => Sys2Proof.Machine.execStLoopchk s
  | .stNwrite => Sys2Proof.Machine.execStNwrite s
  | .stRound => Sys2Proof.Machine.execStRound s
  | .stDlatch => Sys2Proof.Machine.execStDlatch s
  | .stCmp1 => Sys2Proof.Machine.execStCmp1 s
  | .stCmp2 => Sys2Proof.Machine.execStCmp2 s
  | .stFoundx => Sys2Proof.Machine.execStFoundx s
  | .stNinc => Sys2Proof.Machine.execStNinc s
  | .stExitnf => Sys2Proof.Machine.execStExitnf s

end Sys2Proof.Machine
end

