-- ==== Sys2Proof/Machine/Bus.lean ====
section
/-! DEFINITION. The register window (10_state.md R32), the host's bus transactions (20_memory.md R41, R47, R48), the
sequencer's turn (44_control.md R172) and the actions of the four agents (00_scope.md R4). -/

namespace Sys2Proof.Machine

/-- The byte offset of a register in the window (10_state.md R32). -/
def regOffset : Reg → Nat
  | .cmd => 0x000
  | .status => 0x004
  | .ctrl => 0x008
  | .nonceStart => 0x00C
  | .nonceMax => 0x010
  | .nonce => 0x014
  | .winNonce => 0x018
  | .hashesLo => 0x01C
  | .hashesHi => 0x020
  | .permLo => 0x024
  | .permHi => 0x028
  | .prngLo => 0x02C
  | .prngHi => 0x030
  | .target j => 0x040 + 4 * j.val
  | .seed j => 0x060 + 4 * j.val
  | .hdr k => 0x080 + 4 * k.val
  | .digestw j => 0x100 + 4 * j.val
  | .etarget j => 0x120 + 4 * j.val
  | .msgw k => 0x140 + 4 * k.val
  | .bufaw m => 0x200 + 4 * m.val
  | .bufbw m => 0x240 + 4 * m.val

/-- The single registers at word indexes 0..12 of the window (10_state.md R32). -/
def singleReg (w : Nat) : Option Reg :=
  match w with
  | 0 => some .cmd
  | 1 => some .status
  | 2 => some .ctrl
  | 3 => some .nonceStart
  | 4 => some .nonceMax
  | 5 => some .nonce
  | 6 => some .winNonce
  | 7 => some .hashesLo
  | 8 => some .hashesHi
  | 9 => some .permLo
  | 10 => some .permHi
  | 11 => some .prngLo
  | 12 => some .prngHi
  | _ => none

/-- The register of word index `w` (offset 4w) of the window; none at a reserved offset (10_state.md R32). -/
def regOfIndex (w : Nat) : Option Reg :=
  if w < 16 then singleReg w
  else if h : w < 24 then some (.target ⟨w - 16, by omega⟩)
  else if h : w < 32 then some (.seed ⟨w - 24, by omega⟩)
  else if h : w < 52 then some (.hdr ⟨w - 32, by omega⟩)
  else if w < 64 then none
  else if h : w < 72 then some (.digestw ⟨w - 64, by omega⟩)
  else if h : w < 80 then some (.etarget ⟨w - 72, by omega⟩)
  else if h : w < 100 then some (.msgw ⟨w - 80, by omega⟩)
  else if w < 128 then none
  else if h : w < 144 then some (.bufaw ⟨w - 128, by omega⟩)
  else if h : w < 160 then some (.bufbw ⟨w - 144, by omega⟩)
  else none

/-- The register at a legal offset of the window (10_state.md R32). -/
def regAt (addr : Nat) : Option Reg := regOfIndex (addr / 4)

/-- The value a host read of a register returns (20_memory.md R47): the view that 10_state.md gives of it; CMD is
write-only and reads 0. -/
def readReg (s : State) : Reg → Word
  | .cmd => 0
  | .status => statusWord s
  | .ctrl => ctrlWord s.bench
  | .nonceStart => s.nonceStart
  | .nonceMax => s.nonceMax
  | .nonce => s.nonce
  | .winNonce => s.winNonce
  | .hashesLo => s.hashesDone.extractLsb' 0 32
  | .hashesHi => s.hashesDone.extractLsb' 32 32
  | .permLo => permLo s.perm
  | .permHi => permHi s.perm
  | .prngLo => s.prng.extractLsb' 0 32
  | .prngHi => s.prng.extractLsb' 32 32
  | .target j => s.target[j]
  | .seed j => wordAt s.sb (4 * j.val)
  | .hdr k => s.hdr[k]
  | .digestw j => dw s.digest j
  | .etarget j => s.et[j]
  | .msgw k => wordAt s.msg (4 * k.val)
  | .bufaw m => wordAt s.bufa (4 * m.val)
  | .bufbw m => wordAt s.bufb (4 * m.val)

/-- The value a host read at a legal offset returns; a reserved offset reads 0 (20_memory.md R47). -/
def readOffset (s : State) (addr : Nat) : Word :=
  match regAt addr with
  | some reg => readReg s reg
  | none => 0

/-- Whether a register is RW (10_state.md R32). -/
def regWritable : Reg → Bool
  | .ctrl | .nonceStart | .nonceMax | .target _ | .seed _ | .hdr _ => true
  | .cmd | .status | .nonce | .winNonce | .hashesLo | .hashesHi | .permLo | .permHi | .prngLo | .prngHi
  | .digestw _ | .etarget _ | .msgw _ | .bufaw _ | .bufbw _ => false

/-- The register takes the value: of CTRL only bit 0 is kept (10_state.md R13), SEED[j] writes four bytes of SB big-endian
(20_memory.md R42). A register that is not RW keeps its value (20_memory.md R48). -/
def setReg (reg : Reg) (v : Word) (s : State) : State :=
  match reg with
  | .ctrl => { s with bench := v.getLsbD 0 }
  | .nonceStart => { s with nonceStart := v }
  | .nonceMax => { s with nonceMax := v }
  | .target j => { s with target := s.target.set j.val v }
  | .seed j => { s with sb := setWordAt s.sb (4 * j.val) v }
  | .hdr k => { s with hdr := s.hdr.set k.val v }
  | .cmd | .status | .nonce | .winNonce | .hashesLo | .hashesHi | .permLo | .permHi | .prngLo | .prngHi
  | .digestw _ | .etarget _ | .msgw _ | .bufaw _ | .bufbw _ => s

/-- Run the instruction a word stands for. Only a state code 15..31 stands for none (30_encoding.md R65). -/
def runEncoded (e : Encoded) (s : State) : Host.Outcome State Fault Refusal :=
  match decode e with
  | .ok i => exec i s
  | .error (.reservedStateCode c) => .refused (.reservedStateCode c)

/-- The effect of a legal write at an offset (20_memory.md R48): CMD runs the command; an RW register takes the value
while BUSY = 0 and is refused with ERR while BUSY = 1; a write elsewhere in the window is ignored. -/
def writeOffset (addr : Nat) (v : Word) (s : State) : Host.Outcome State Fault Refusal :=
  match regAt addr with
  | some .cmd => runEncoded (.cmd v) s
  | some reg => if regWritable reg then if s.busy then .next (setErr s) else .next (setReg reg v s) else .next s
  | none => .next s

/-- The state with the bus answer set, when there is a state. -/
def answer (resp : BusResp) : Host.Outcome State Fault Refusal → Host.Outcome State Fault Refusal
  | .next s => .next { s with resp := resp }
  | .fault f => .fault f
  | .refused r => .refused r

/-- A legal access: 32 bits wide, at a multiple of 4, inside 0x000..0x3FF (20_memory.md R41). -/
def accessLegal (addr width : Nat) : Bool := width = 4 ∧ addr % 4 = 0 ∧ addr < 0x400

/-- One bus transaction (20_memory.md R41, R47, R48): an illegal access faults with busError before anything else is
looked at (60_exceptions.md R196); a legal read changes no register. -/
def busAccess (a : BusAccess) (s : State) : Host.Outcome State Fault Refusal :=
  match a with
  | .read addr width =>
    if accessLegal addr width then .next { s with resp := .data (readOffset s addr) } else .fault (.busError addr)
  | .write addr width v =>
    if accessLegal addr width then answer .ack (writeOffset addr v s) else .fault (.busError addr)

/-- The host's step: the transaction, with a bus error answered to the host and nothing changed in the block
(20_memory.md R41, 60_exceptions.md R197; DEDUCED, safe: log 3). -/
def hostStep (a : BusAccess) (s : State) : Host.Outcome State Fault Refusal :=
  match busAccess a s with
  | .fault (.busError addr) => .next { s with resp := .error addr }
  | o => o

/-- A bus transaction while `rst` is asserted (70_reset_and_hazards.md R210): writes are ignored, reads return the reset
values. What is answered to an ignored or an illegal access is the model's (DESIGN CHOICE, unsafe: log 4). -/
def hostStepInReset (a : BusAccess) (s : State) : Host.Outcome State Fault Refusal :=
  match a with
  | .read _ _ => hostStep a s
  | .write addr width _ =>
    .next { s with resp := if accessLegal addr width then .ack else .error addr }

/-- The word the sequencer runs at its turn: the state code ST while BUSY = 1; while BUSY = 0 the sequencer has no step,
which is the code of IDLE (44_control.md R172). -/
def seqWord (s : State) : BitVec 5 := if s.busy then seqCode s.st else seqCode .idle

/-- The sequencer's turn (44_control.md R172). -/
def seqStep (s : State) : Host.Outcome State Fault Refusal := runEncoded (.st (seqWord s)) s

/-- One action while `rst` is released. -/
def actRunning (a : Action) (s : State) : Host.Outcome State Fault Refusal :=
  match a with
  | .tick => seqStep s
  | .host acc => hostStep acc s
  | .cancel level => .next { s with cancel := level }
  | .reset true => .next (resetBlock { s with rst := true })
  | .reset false => .next s

/-- One action while `rst` is asserted: the block is held at its reset values, no other agent's action has an effect on
it, and the sequencer has no step (70_reset_and_hazards.md R210). The pins follow their sources. -/
def actInReset (a : Action) (s : State) : Host.Outcome State Fault Refusal :=
  match a with
  | .tick => .next s
  | .host acc => hostStepInReset acc s
  | .cancel level => .next { s with cancel := level }
  | .reset level => .next { s with rst := level }

/-- One action of an agent; `rst` wins over everything (70_reset_and_hazards.md R210, 60_exceptions.md R196). -/
def act (a : Action) (s : State) : Host.Outcome State Fault Refusal :=
  if s.rst then actInReset a (resetBlock s) else actRunning a s

/-- The action of the next step: the first one listed, the sequencer's turn when none is (log 1). -/
def nextAction (s : State) : Action :=
  match s.sched with
  | [] => .tick
  | a :: _ => a

/-- The word that the next step runs through the decoder, if it runs one: the data of a legal CMD write, or the
sequencer's state code at its turn; none while `rst` is asserted and in the other steps. -/
def fetch (s : State) : Option Encoded :=
  if s.rst then none
  else
    match nextAction s with
    | .tick => some (.st (seqWord s))
    | .host (.write addr width v) =>
      if accessLegal addr width = true ∧ regAt addr = some .cmd then some (.cmd v) else none
    | .host (.read _ _) | .cancel _ | .reset _ => none

/-- The state with a word placed where the next step fetches it: a CMD word as a host write that comes first, a state
code in ST with BUSY to match, a slot code in PERM[R] with ST = ROUND; `rst` released, and for ST and SEL no listed
action before the sequencer's turn (log 12). -/
def placeWord (s : State) : Encoded → State
  | .cmd w => { s with rst := false, sched := .host (.write 0x000 4 w) :: s.sched }
  | .sel c => { s with rst := false, sched := [], busy := true, st := .round, perm := s.perm.set s.r.val c }
  | .st c =>
    match seqOfCode c with
    | some q => { s with rst := false, sched := [], busy := q != .idle, st := q }
    | none => s

end Sys2Proof.Machine
end

