-- ==== Sys2Proof/Machine/Step.lean ====
section
/-! DEFINITION. One step of the machine: the next action of the total order of the agents (20_memory.md R50). -/

namespace Sys2Proof.Machine

/-- One step: the first listed action is taken off the schedule and performed; when none is listed the sequencer has its
turn (00_scope.md R4, 20_memory.md R50, 44_control.md R172; DESIGN CHOICE, safe: log 1). -/
def step (s : State) : Host.Outcome State Fault Refusal :=
  act (nextAction s) { s with sched := s.sched.tail }

/-- The state whose next step fetches and runs the instruction of a table word (log 12). -/
def State.withFetchWord (s : State) (nbits w : Nat) : State :=
  match tableWord nbits w with
  | some e => placeWord s e
  | none => s

end Sys2Proof.Machine
end

