-- ==== Sys2Proof/Machine/BigStep.lean ====
section
/-! DEFINITION. The functions the spec says the block computes, each in one piece (40_permutation.md R87, 41_hashchain.md
R105, 42_search.md R128, 43_comparator.md R151), and the running of the sequencer alone. No step calls them; the
statements compare the sequencer with them. -/

namespace Sys2Proof.Machine

/-- The seed folded to the first PRNG state: `s_0 ^ s_1 ^ s_2 ^ s_3` (40_permutation.md R87 steps 2 and 3). -/
def seedState (seed : Vector Byte 32) : DWord := le64 seed 0 ^^^ le64 seed 1 ^^^ le64 seed 2 ^^^ le64 seed 3

/-- One iteration of the shuffle: advance the state, take `r`, swap `perm[i]` and `perm[r]` (R87 step 5). -/
def shuffleOnce (xp : DWord × Vector Sel 11) (i : Fin 11) : DWord × Vector Sel 11 :=
  (xorshift64 xp.1, xp.2.swap i.val (shufIndex (xorshift64 xp.1) i).val)

/-- The indexes of the shuffle in their order: 10 down to 1 (R87 step 5). -/
def shuffleOrder : List (Fin 11) := [10, 9, 8, 7, 6, 5, 4, 3, 2, 1]

/-- `derive_from_seed`, with the final PRNG state beside the permutation (R87 steps 2 to 6). -/
def deriveFromSeed (seed : Vector Byte 32) : DWord × Vector Sel 11 :=
  shuffleOrder.foldl shuffleOnce (seedState seed, identityPerm)

/-- `derive_permutation(previous_hash)` (R87). -/
def derivePermutation (ph : Vector Byte 32) : Vector Sel 11 := (deriveFromSeed (Config.SHA256 ph)).2

/-- The header words as the 80 message bytes (20_memory.md R43). -/
def headerBytes (hdr : Vector Word 20) : Vector Byte 80 :=
  Vector.ofFn fun b : Fin 80 => be32Byte hdr[b.val / 4] (b.val % 4)

/-- The previous-hash window of a message, bytes 4..35 (30_encoding.md R68). -/
def previousHash (msg : Vector Byte 80) : Vector Byte 32 := window msg 4 32

/-- `SlotFn(sel)` as a function (41_hashchain.md R101). -/
def slotFn (sel : Sel) : List Byte → Vector Byte 64 := Config.CF (slotUnit sel)

/-- The output of the last of some rounds after round 0, with a given order: round 0 on the 80-byte message, each later
round on the 64 bytes before it (41_hashchain.md R105 steps 2 and 3). -/
def chainOver (rounds : List (Fin 11)) (perm : Vector Sel 11) (msg : Vector Byte 80) : Vector Byte 64 :=
  rounds.foldl (fun cur r => slotFn perm[r] cur.toList) (slotFn perm[0] msg.toList)

/-- The output of round 9, the last but one (41_hashchain.md R106). -/
def chainBeforeLast (perm : Vector Sel 11) (msg : Vector Byte 80) : Vector Byte 64 :=
  chainOver [1, 2, 3, 4, 5, 6, 7, 8, 9] perm msg

/-- The output of the eleven rounds on an 80-byte message, with a given order (41_hashchain.md R105 steps 2 and 3). -/
def chain (perm : Vector Sel 11) (msg : Vector Byte 80) : Vector Byte 64 :=
  chainOver [1, 2, 3, 4, 5, 6, 7, 8, 9, 10] perm msg

/-- The digest of a message with a given order: the first 32 bytes of the last output (41_hashchain.md R105 step 4). -/
def chainDigest (perm : Vector Sel 11) (msg : Vector Byte 80) : Vector Byte 32 := window (chain perm msg) 0 32

/-- `hash(header)` (41_hashchain.md R105). -/
def hashMessage (msg : Vector Byte 80) : Vector Byte 32 :=
  chainDigest (derivePermutation (previousHash msg)) msg

/-- `D256`, the digest as a number (43_comparator.md R151, 20_memory.md R46). -/
def digestNumber (digest : Vector Byte 32) : Nat := digest.toList.foldl (fun n b => n * 256 + b.toNat) 0

/-- `T256`, the effective target as a number (43_comparator.md R151, 20_memory.md R45). -/
def targetNumber (et : Vector Word 8) : Nat := et.toList.foldl (fun n w => n * 2 ^ 32 + w.toNat) 0

/-- A digest is accepted when `D256 <= T256` (43_comparator.md R151). -/
def accepted (digest : Vector Byte 32) (et : Vector Word 8) : Bool := digestNumber digest ≤ targetNumber et

/-- The digest a search computes for a nonce: the hash of the header with the nonce in its twentieth word
(42_search.md R128). -/
def nonceDigest (hdr : Vector Word 20) (nonce : Word) : Vector Byte 32 := hashMessage (headerBytes (hdr.set 19 nonce))

/-- Whether a nonce passes in a search from a state with these operands (42_search.md R128 step 3c). -/
def noncePasses (s : State) (nonce : Word) : Bool :=
  accepted (nonceDigest s.hdr nonce) (effectiveTarget s.bench s.target)

/-- No action of another agent comes: the sequencer has every turn. -/
def Undisturbed (s : State) : Prop := s.sched = [] ∧ s.rst = false

/-- `k` steps of the machine, stopping at the first fault or refusal (`Host.Core.run` of the model's core, on its step). -/
def run : Nat → State → Host.Outcome State Fault Refusal
  | 0, s => .next s
  | k + 1, s =>
    match step s with
    | .next t => run k t
    | .fault f => .fault f
    | .refused r => .refused r

end Sys2Proof.Machine
end

