-- ==== Sys2Proof/Safety.lean ====
section
/-! DEFINITION. What holds of the machine in every run: the invariants the spec states of the reachable states, each
decidable, and the safe outcome of a step. -/

namespace Sys2Proof.Machine

/-- PERM holds each of 0..10 exactly once (10_state.md R17, 40_permutation.md R88). -/
abbrev PermValid (p : Vector Sel 11) : Prop := p.toList.Perm identityPerm.toList

/-- PERM is a permutation and the mux fallback was never taken (40_permutation.md R88, 60_exceptions.md R193). -/
abbrev PermInv (s : State) : Prop := PermValid s.perm ∧ s.fallback = false

/-- The sequencer states each command passes through (30_encoding.md R65); an idle block may hold any OP. -/
def stateOfCommand : RunOp → SeqState → Bool
  | _, .idle => true
  | .deriveSeed, st => st ∈ [.pinit, .shuf]
  | .deriveHdr, st => st ∈ [.conv, .seedgen, .pinit, .shuf]
  | .hash, st => st ∈ [.conv, .seedgen, .pinit, .shuf, .round, .dlatch]
  | .compare, st => st ∈ [.tlatch, .cmp1, .cmp2]
  | .search, _ => true
  | .none, _ => false

/-- ST = IDLE exactly when BUSY = 0 (10_state.md R28), DONE and FOUND are 0 while BUSY, and ST is a state of the command
in OP (30_encoding.md R65). -/
abbrev ControlInv (s : State) : Prop :=
  (s.busy = true ↔ s.st ≠ .idle) ∧ (s.busy = true → s.done = false ∧ s.found = false) ∧
    stateOfCommand s.op s.st = true

/-- The counters and the buffer role: I is not 0 exactly in SHUF (40_permutation.md R86); in ROUND, CUR is 1 exactly
before an even round other than round 0, and outside ROUND it is 0 with R at 0 or 10, at 10 in DLATCH (41_hashchain.md
R106). -/
abbrev ChainInv (s : State) : Prop :=
  (s.st = .shuf ↔ s.i ≠ 0) ∧ (s.st = .round → s.cur = decide (s.r.val ≠ 0 ∧ s.r.val % 2 = 0)) ∧
    (s.st ≠ .round → s.cur = false ∧ (s.r = 0 ∨ s.r = 10)) ∧ (s.st = .dlatch → s.r = 10)

/-- The states of the search before its loop (42_search.md R120). -/
def inPreamble (st : SeqState) : Bool := st ∈ [.tlatch, .conv, .seedgen, .pinit, .shuf]

/-- The states of one loop iteration after LOOPCHK let it in (42_search.md R124). -/
def inIteration (st : SeqState) : Bool := st ∈ [.nwrite, .round, .dlatch, .cmp1, .cmp2, .foundx, .ninc]

/-- The search registers: while a SEARCH runs the results are still 0, NONCE does not lie below NONCE_START and equals it
in the preamble, and in an iteration it lies below NONCE_MAX, so that no increment wraps (42_search.md R129,
70_reset_and_hazards.md R216); WIN_NONCE is 0 after a SEARCH that found nothing (10_state.md R24). -/
abbrev SearchInv (s : State) : Prop :=
  (s.op = .search → s.busy = true →
      s.winNonce = 0 ∧ s.hashesDone = 0 ∧ s.nonceStart ≤ s.nonce ∧
        (inPreamble s.st = true → s.nonce = s.nonceStart) ∧ (inIteration s.st = true → s.nonce < s.nonceMax)) ∧
    (s.op = .search → s.found = false → s.winNonce = 0)

/-- The flag LE (43_comparator.md R156): while BUSY it is 1 only in FOUNDX, where it is 1; after a SEARCH it equals
FOUND; FOUND is 1 only after a SEARCH; and after DERIVE_SEED, DERIVE_HDR or HASH LE is 0. -/
abbrev LeInv (s : State) : Prop :=
  (s.busy = true → s.le = decide (s.st = .foundx)) ∧ (s.op = .search → s.busy = false → s.le = s.found) ∧
    (s.op ≠ .search → s.found = false) ∧ (s.op ∉ [.search, .compare] → s.le = false)

/-- While `rst` is asserted the block holds its reset values (70_reset_and_hazards.md R210). -/
abbrev ResetInv (s : State) : Prop := s.rst = true → resetBlock s = s

/-- The invariants of the machine together. -/
structure Inv (s : State) : Prop where
  perm : PermInv s
  control : ControlInv s
  chain : ChainInv s
  search : SearchInv s
  le : LeInv s
  reset : ResetInv s

/-- A step is safe when the machine goes on: no step faults or is refused (44_control.md R172, 60_exceptions.md R197). -/
def stepSafe (s : State) : Prop := ∃ t, step s = .next t

end Sys2Proof.Machine
end

