-- ==== Sys2Proof/Certificates/Slice0/Obligations.lean ====
section
/-! DEFINITION. The statements for the provers, family by family; OBLIGATIONS.json lists them. -/

open Sys2Proof Sys2Proof.Machine

/-! ## Encodings -/

/-- Decoding the encoding of a well-formed instruction gives it back, and every word that decodes is the encoding of the
well-formed instruction it decodes to, for the three formats and all their words. -/
def Obligations.DecodeEncodeAgree : Prop :=
  (∀ i : Instr, i.wf = true → decode (encode i) = .ok i) ∧
    ∀ (e : Encoded) (i : Instr), decode e = .ok i → i.wf = true ∧ encode i = e

/-- The opcode map of format CMD, on the sixteen words with ZERO = 0 (R61). -/
def Obligations.OpcodeMapOfCmd : Prop :=
  decode (.cmd 0x0) = .ok .nop ∧ decode (.cmd 0x1) = .ok .deriveSeed ∧ decode (.cmd 0x2) = .ok .deriveHdr ∧
    decode (.cmd 0x3) = .ok .hash ∧ decode (.cmd 0x4) = .ok .search ∧ decode (.cmd 0x5) = .ok .compare ∧
    decode (.cmd 0x6) = .ok .clrf ∧ decode (.cmd 0x7) = .ok .reserved7 ∧ decode (.cmd 0x8) = .ok .reserved8 ∧
    decode (.cmd 0x9) = .ok .reserved9 ∧ decode (.cmd 0xA) = .ok .reservedA ∧ decode (.cmd 0xB) = .ok .reservedB ∧
    decode (.cmd 0xC) = .ok .reservedC ∧ decode (.cmd 0xD) = .ok .reservedD ∧ decode (.cmd 0xE) = .ok .reservedE ∧
    decode (.cmd 0xF) = .ok .sreset

/-- A few words of the other two formats, written out from 30_encoding.md: slot codes 0100, 1010 and 1101, state codes
00101 and 01110, and the state code 01111 that no rule produces; and a CMD word with bit 4 set. -/
def Obligations.SlotAndStateCodesDecode : Prop :=
  decode (.sel 0b0100) = .ok .jh512 ∧ decode (.sel 0b1010) = .ok .echo512 ∧ decode (.sel 0b1101) = .ok .invalidD ∧
    decode (.st 0b00101) = .ok .stShuf ∧ decode (.st 0b01110) = .ok .stExitnf ∧
    decode (.st 0b01111) = .error (.reservedStateCode 15) ∧ decode (.cmd 0x13) = .ok (.reservedHighbits 1 3)

/-- The register map is the table of R32: at each offset of the table stands the register the table names, at the reserved
offsets of the window none; the RW registers are the table's; the register at the offset of a register is that register,
its offset is a legal access, and a legal offset at which a register stands is that register's offset, so no two registers
share one. -/
def Obligations.RegisterMapOneToOne : Prop :=
  (regAt 0x000 = some .cmd ∧ regAt 0x004 = some .status ∧ regAt 0x008 = some .ctrl ∧ regAt 0x00C = some .nonceStart ∧
    regAt 0x010 = some .nonceMax ∧ regAt 0x014 = some .nonce ∧ regAt 0x018 = some .winNonce ∧
    regAt 0x01C = some .hashesLo ∧ regAt 0x020 = some .hashesHi ∧ regAt 0x024 = some .permLo ∧
    regAt 0x028 = some .permHi ∧ regAt 0x02C = some .prngLo ∧ regAt 0x030 = some .prngHi ∧
    (∀ j : Fin 8, regAt (0x040 + 4 * j.val) = some (.target j)) ∧
    (∀ j : Fin 8, regAt (0x060 + 4 * j.val) = some (.seed j)) ∧
    (∀ k : Fin 20, regAt (0x080 + 4 * k.val) = some (.hdr k)) ∧
    (∀ j : Fin 8, regAt (0x100 + 4 * j.val) = some (.digestw j)) ∧
    (∀ j : Fin 8, regAt (0x120 + 4 * j.val) = some (.etarget j)) ∧
    (∀ k : Fin 20, regAt (0x140 + 4 * k.val) = some (.msgw k)) ∧
    (∀ m : Fin 16, regAt (0x200 + 4 * m.val) = some (.bufaw m)) ∧
    ∀ m : Fin 16, regAt (0x240 + 4 * m.val) = some (.bufbw m)) ∧
  (∀ addr : Nat, accessLegal addr 4 = true →
    ((0x034 ≤ addr ∧ addr ≤ 0x03C) ∨ (0x0D0 ≤ addr ∧ addr ≤ 0x0FC) ∨ (0x190 ≤ addr ∧ addr ≤ 0x1FC) ∨ 0x280 ≤ addr) →
    regAt addr = none) ∧
  (∀ reg : Reg, regWritable reg = true ↔
    reg = .ctrl ∨ reg = .nonceStart ∨ reg = .nonceMax ∨ (∃ j, reg = .target j) ∨ (∃ j, reg = .seed j) ∨
      ∃ k, reg = .hdr k) ∧
  (∀ reg : Reg, regAt (regOffset reg) = some reg ∧ accessLegal (regOffset reg) 4 = true) ∧
    ∀ (addr : Nat) (reg : Reg), accessLegal addr 4 = true → regAt addr = some reg → regOffset reg = addr

/-! ## Command acceptance and the immediate commands -/

/-- What a CMD write of `w` with BUSY = 0 does to the state, in the words of R165. -/
def Sys2Proof.Machine.acceptanceOf (w : Word) (s : State) : State :=
  if w.toNat / 16 ≠ 0 ∨ (7 ≤ w.toNat ∧ w.toNat ≤ 14) then { s with err := true }
  else if w.toNat = 6 then { s with err := false, fallback := false }
  else if w.toNat = 15 then resetBlock s
  else if w.toNat = 1 then
    { s with op := .deriveSeed, busy := true, done := false, found := false, le := false, st := .pinit }
  else if w.toNat = 2 then
    { s with op := .deriveHdr, busy := true, done := false, found := false, le := false, st := .conv }
  else if w.toNat = 3 then
    { s with op := .hash, busy := true, done := false, found := false, le := false, st := .conv }
  else if w.toNat = 4 then
    { s with op := .search, busy := true, done := false, found := false, le := false, st := .tlatch,
             nonce := s.nonceStart, winNonce := 0, hashesDone := 0 }
  else if w.toNat = 5 then
    { s with op := .compare, busy := true, done := false, found := false, le := false, st := .tlatch }
  else s

/-- Every one of the 2^32 CMD words, written while BUSY = 0, decodes to an instruction that answers the next state R165
gives the word. -/
def Obligations.CommandAcceptance : Prop :=
  ∀ (w : Word) (s : State), s.busy = false →
    ∃ i, decode (.cmd w) = .ok i ∧ exec i s = .next (acceptanceOf w s)

/-- NOP, accepted, changes no state at all (R167). -/
def Obligations.NopChangesNothing : Prop :=
  ∀ s : State, s.busy = false → exec .nop s = .next s

/-- CLRF, accepted, clears ERR and FALLBACK and changes nothing else; and a sticky flag falls in no other step than the
CMD write of CLRF or SRESET while BUSY = 0, or a reset (R168). -/
def Obligations.ClrfClearsStickyFlags : Prop :=
  (∀ s : State, s.busy = false → exec .clrf s = .next { s with err := false, fallback := false }) ∧
    ∀ s t : State, s.rst = false → step s = .next t →
      (s.err = true ∧ t.err = false) ∨ (s.fallback = true ∧ t.fallback = false) →
      nextAction s = .reset true ∨
        (s.busy = false ∧ (nextAction s = .host (.write 0 4 6) ∨ nextAction s = .host (.write 0 4 15)))

/-- SRESET, accepted: every piece of state at its reset value, the host's input registers too; the pins (and the model's
schedule and last bus answer) as they were (R169). -/
def Obligations.SresetResetsEverything : Prop :=
  ∀ s : State, s.busy = false → ∃ t, exec .sreset s = .next t ∧
    (∀ k : Fin 20, t.hdr[k] = 0) ∧ (∀ j : Fin 8, t.target[j] = 0) ∧ t.nonceStart = 0 ∧ t.nonceMax = 0 ∧
    t.bench = false ∧ (∀ b : Fin 32, t.sb[b] = 0) ∧ t.prng = 0 ∧ t.i = 0 ∧
    (∀ j : Fin 11, t.perm[j].toNat = j.val) ∧ (∀ b : Fin 80, t.msg[b] = 0) ∧ (∀ b : Fin 64, t.bufa[b] = 0) ∧
    (∀ b : Fin 64, t.bufb[b] = 0) ∧ t.cur = false ∧ t.r = 0 ∧ (∀ b : Fin 32, t.digest[b] = 0) ∧
    (∀ j : Fin 8, t.et[j] = 0) ∧ t.nonce = 0 ∧ t.winNonce = 0 ∧ t.hashesDone = 0 ∧ t.busy = false ∧
    t.done = false ∧ t.found = false ∧ t.le = false ∧ t.err = false ∧ t.fallback = false ∧ t.st = .idle ∧
    t.op = .none ∧ t.cancel = s.cancel ∧ t.rst = s.rst ∧ t.sched = s.sched ∧ t.resp = s.resp

/-- The eight reserved opcodes and every word with a bit of 31:4 set, with BUSY = 0: ERR is set and nothing else happens
(R170). -/
def Obligations.ReservedWordsOnlySetErr : Prop :=
  ∀ s : State, s.busy = false →
    (∀ i : Instr,
      i ∈ [Instr.reserved7, .reserved8, .reserved9, .reservedA, .reservedB, .reservedC, .reservedD, .reservedE] →
        exec i s = .next { s with err := true }) ∧
    ∀ (zero : BitVec 28) (opc : BitVec 4), exec (.reservedHighbits zero opc) s = .next { s with err := true }

/-- The five run commands, accepted, start: OP, BUSY, ST, and DONE, FOUND and LE cleared; SEARCH also initialises the
search registers; nothing else changes. -/
def Obligations.RunCommandsStart : Prop :=
  ∀ s : State, s.busy = false →
    exec .deriveSeed s = .next
      { s with op := .deriveSeed, busy := true, done := false, found := false, le := false, st := .pinit } ∧
    exec .deriveHdr s = .next
      { s with op := .deriveHdr, busy := true, done := false, found := false, le := false, st := .conv } ∧
    exec .hash s = .next
      { s with op := .hash, busy := true, done := false, found := false, le := false, st := .conv } ∧
    exec .search s = .next
      { s with op := .search, busy := true, done := false, found := false, le := false, st := .tlatch,
               nonce := s.nonceStart, winNonce := 0, hashesDone := 0 } ∧
    exec .compare s = .next
      { s with op := .compare, busy := true, done := false, found := false, le := false, st := .tlatch }

/-- A CMD write of any word while BUSY = 1 sets ERR and changes nothing else, NOP, CLRF and SRESET among them (R166). -/
def Obligations.BusyRefusesEveryCommand : Prop :=
  ∀ (w : Word) (s : State), s.busy = true →
    ∃ i, decode (.cmd w) = .ok i ∧ exec i s = .next { s with err := true }

/-! ## PG -/

/-- xorshift64 in arithmetic: each of the three steps on numbers, with the left shifts modulo 2^64 (R85). -/
def Obligations.Xorshift64Arithmetic : Prop :=
  ∀ x : DWord,
    let a := x.toNat ^^^ (x.toNat * 2 ^ 13 % 2 ^ 64)
    let b := a ^^^ (a / 2 ^ 7)
    (xorshift64 x).toNat = b ^^^ (b * 2 ^ 17 % 2 ^ 64)

/-- Step CONV: for DERIVE_HDR and HASH every header word k stands big-endian in MSG[4k..4k+3] afterwards; for SEARCH words
0..18 do and MSG[76..79] is unchanged; only MSG and ST change (R82). With an OP the sequencer never has in CONV the
model converts all twenty words, as the rule's "else" says. -/
def Obligations.ConvSerialisesHeader : Prop :=
  ∀ s : State, ∃ t, exec .stConv s = .next t ∧ t = { s with msg := t.msg, st := .seedgen } ∧
    (∀ (k : Fin 20) (j : Fin 4), k.val < 19 ∨ s.op ≠ .search →
      t.msg[4 * k.val + j.val].toNat = s.hdr[k].toNat / 2 ^ (8 * (3 - j.val)) % 2 ^ 8) ∧
    (s.op = .search → ∀ b : Fin 80, 76 ≤ b.val → t.msg[b] = s.msg[b])

/-- Step SEEDGEN: SB becomes SHA256 of the 32 bytes MSG[4..35]; only SB and ST change (R83). -/
def Obligations.SeedgenHashesPreviousHash : Prop :=
  ∀ (s : State) (ph : Vector Byte 32), (∀ j : Fin 32, ph[j] = s.msg[4 + j.val]) →
    exec .stSeedgen s = .next { s with sb := Config.SHA256 ph, st := .pinit }

/-- Step PINIT: PRNG is the XOR of the four little-endian words of SB, PERM the identity, I = 10; only these and ST change
(R84). -/
def Obligations.PinitFoldsSeed : Prop :=
  ∀ (s : State) (w : Fin 4 → DWord),
    (∀ j : Fin 4, (w j).toNat =
      s.sb[8 * j.val].toNat + s.sb[8 * j.val + 1].toNat * 2 ^ 8 + s.sb[8 * j.val + 2].toNat * 2 ^ 16 +
        s.sb[8 * j.val + 3].toNat * 2 ^ 24 + s.sb[8 * j.val + 4].toNat * 2 ^ 32 +
        s.sb[8 * j.val + 5].toNat * 2 ^ 40 + s.sb[8 * j.val + 6].toNat * 2 ^ 48 +
        s.sb[8 * j.val + 7].toNat * 2 ^ 56) →
    ∃ t, exec .stPinit s = .next t ∧ t = { s with prng := t.prng, perm := t.perm, i := 10, st := .shuf } ∧
      t.prng = w 0 ^^^ w 1 ^^^ w 2 ^^^ w 3 ∧ ∀ j : Fin 11, t.perm[j].toNat = j.val

/-- Step SHUF at I in 10..1: PRNG advances, PERM[I] and PERM[r] are exchanged for r the advanced state modulo I + 1, I
counts down; while I - 1 is not 0 the state stays SHUF, at I = 1 the command goes on as its OP says (R86). -/
def Obligations.ShufOneIteration : Prop :=
  ∀ (s : State) (r : Fin 11), s.i ≠ 0 → r.val = (xorshift64 s.prng).toNat % (s.i.val + 1) →
    s.op ∈ [RunOp.deriveSeed, .deriveHdr, .hash, .search] →
    ∃ t, exec .stShuf s = .next t ∧
      t = { s with prng := xorshift64 s.prng, perm := t.perm, i := t.i, r := t.r, st := t.st, busy := t.busy,
                   done := t.done } ∧
      t.i.val = s.i.val - 1 ∧
      (∀ k : Fin 11, t.perm[k] = if k = s.i then s.perm[r] else if k = r then s.perm[s.i] else s.perm[k]) ∧
      (s.i ≠ 1 → t.st = .shuf ∧ t.r = s.r ∧ t.busy = s.busy ∧ t.done = s.done) ∧
      (s.i = 1 → s.op = .deriveSeed ∨ s.op = .deriveHdr →
        t.st = .idle ∧ t.r = s.r ∧ t.busy = false ∧ t.done = true) ∧
      (s.i = 1 → s.op = .hash → t.st = .round ∧ t.r = 0 ∧ t.busy = s.busy ∧ t.done = s.done) ∧
      (s.i = 1 → s.op = .search → t.st = .loopchk ∧ t.r = s.r ∧ t.busy = s.busy ∧ t.done = s.done)

/-- A seed whose four words XOR to 0 keeps the PRNG at 0 and gives the rotation [1, .., 10, 0] (R89). -/
def Obligations.ZeroSeedGivesRotation : Prop :=
  ∀ seed : Vector Byte 32, seedState seed = 0 →
    deriveFromSeed seed = (0, #v[1, 2, 3, 4, 5, 6, 7, 8, 9, 10, 0])

/-- DERIVE_SEED, accepted and undisturbed, takes eleven steps to completion and leaves the permutation and the final PRNG
state that `derive_from_seed` gives for SB; everything else it is said not to write keeps its value (R80). -/
def Obligations.DeriveSeedComputesPermutation : Prop :=
  ∀ s : State, s.busy = false → Undisturbed s →
    ∃ a t, exec .deriveSeed s = .next a ∧ run 11 a = .next t ∧
      t = { s with op := .deriveSeed, done := true, found := false, le := false, st := .idle, i := 0,
                   prng := (deriveFromSeed s.sb).1, perm := (deriveFromSeed s.sb).2 } ∧
      ∀ (k : Nat) (u : State), k < 11 → run k a = .next u → u.busy = true

/-- DERIVE_HDR, accepted and undisturbed, takes thirteen steps to completion and leaves the converted header, its seed and
its permutation (R81). -/
def Obligations.DeriveHdrComputesPermutation : Prop :=
  ∀ s : State, s.busy = false → Undisturbed s →
    ∃ a t, exec .deriveHdr s = .next a ∧ run 13 a = .next t ∧
      t = { s with op := .deriveHdr, done := true, found := false, le := false, st := .idle, i := 0,
                   msg := headerBytes s.hdr, sb := Config.SHA256 (previousHash (headerBytes s.hdr)),
                   prng := (deriveFromSeed (Config.SHA256 (previousHash (headerBytes s.hdr)))).1,
                   perm := derivePermutation (previousHash (headerBytes s.hdr)) } ∧
      ∀ (k : Nat) (u : State), k < 13 → run k a = .next u → u.busy = true

/-! ## HCE -/

/-- What the mux gives a round for a slot code: unit CF[code] for 0..10; CF[0] and FALLBACK set for 11..15 (R101). -/
def Sys2Proof.Machine.MuxGives (sel : Sel) (before after : Bool) (unit : Fin 11) : Prop :=
  (sel.toNat ≤ 10 → unit.val = sel.toNat ∧ after = before) ∧ (10 < sel.toNat → unit = 0 ∧ after = true)

/-- Step ROUND with R = 0: the unit the mux selects for PERM[0], on all 80 bytes of MSG, into BUFA; CUR 0, R 1; only these,
ST and (through the mux) FALLBACK are written (R102). -/
def Obligations.RoundZeroHashesMessage : Prop :=
  ∀ s : State, s.r = 0 →
    ∃ (t : State) (unit : Fin 11), exec .stRound s = .next t ∧ MuxGives s.perm[0] s.fallback t.fallback unit ∧
      t = { s with bufa := Config.CF unit s.msg.toList, cur := false, r := 1, st := .round, fallback := t.fallback }

/-- Step ROUND with R in 1..10: the unit the mux selects for PERM[R], on the whole current buffer, into the other one; the
roles swap; after round 10 R stays and DLATCH follows (R103). -/
def Obligations.LaterRoundsSwapBuffers : Prop :=
  ∀ s : State, s.r ≠ 0 →
    ∃ (t : State) (unit : Fin 11), exec .stRound s = .next t ∧ MuxGives s.perm[s.r] s.fallback t.fallback unit ∧
      t = { s with bufa := t.bufa, bufb := t.bufb, cur := !s.cur, r := t.r, st := t.st, fallback := t.fallback } ∧
      (s.cur = false → t.bufb = Config.CF unit s.bufa.toList ∧ t.bufa = s.bufa) ∧
      (s.cur = true → t.bufa = Config.CF unit s.bufb.toList ∧ t.bufb = s.bufb) ∧
      (s.r.val = 10 → t.r = s.r ∧ t.st = .dlatch) ∧ (s.r.val ≠ 10 → t.r.val = s.r.val + 1 ∧ t.st = .round)

/-- The mux: the instruction of slot code c runs the round with CF[c] for c <= 10, and with CF[0] and FALLBACK set for c in
11..15; apart from FALLBACK the two differ in nothing, and no other register is written (R101). That a slot code, taken as
an instruction, runs the whole ROUND step with the mux at that code is the model's reading (log 5): the rule gives the
mux only. -/
def Obligations.SlotCodeSelectsUnit : Prop :=
  ∀ (i : Instr) (c : Sel) (s : State), encode i = .sel c →
    ∃ (t : State) (unit : Fin 11), exec i s = .next t ∧
      MuxGives c s.fallback t.fallback unit ∧
      t = { s with bufa := t.bufa, bufb := t.bufb, cur := t.cur, r := t.r, st := t.st, fallback := t.fallback } ∧
      (s.r = 0 → t.bufa = Config.CF unit s.msg.toList ∧ t.bufb = s.bufb ∧ t.cur = false ∧ t.r = 1 ∧ t.st = .round) ∧
      (s.r ≠ 0 → t.cur = !s.cur ∧
        (s.cur = false → t.bufb = Config.CF unit s.bufa.toList ∧ t.bufa = s.bufa) ∧
        (s.cur = true → t.bufa = Config.CF unit s.bufb.toList ∧ t.bufb = s.bufb) ∧
        (s.r.val = 10 → t.r = s.r ∧ t.st = .dlatch) ∧ (s.r.val ≠ 10 → t.r.val = s.r.val + 1 ∧ t.st = .round))

/-- Step ROUND is the instruction of the slot code PERM[R]: the mux follows the permutation. -/
def Obligations.RoundRunsSlotOfPerm : Prop :=
  ∀ s : State, ∃ i, decode (.sel s.perm[s.r]) = .ok i ∧ exec .stRound s = exec i s

/-- Step DLATCH: DIGEST takes the first 32 bytes of the current buffer; HASH completes, SEARCH goes on to CMP1 (R104). -/
def Obligations.DlatchTakesCurrentBuffer : Prop :=
  ∀ s : State, s.op = .hash ∨ s.op = .search →
    ∃ t, exec .stDlatch s = .next t ∧
      t = { s with digest := t.digest, st := t.st, busy := t.busy, done := t.done } ∧
      (∀ b : Fin 32, t.digest[b] = if s.cur then s.bufb[b.val] else s.bufa[b.val]) ∧
      (s.op = .hash → t.st = .idle ∧ t.busy = false ∧ t.done = true) ∧
      (s.op = .search → t.st = .cmp1 ∧ t.busy = s.busy ∧ t.done = s.done)

/-- HASH, accepted and undisturbed, takes 25 steps to completion and leaves in DIGEST the
hash of the header's 80 bytes, with the other results and the frame R100 gives; BUFA holds the output of round 10 and BUFB
that of round 9 (R106). -/
def Obligations.HashComputesDigest : Prop :=
  ∀ s : State, s.busy = false → Undisturbed s →
    ∃ a t, exec .hash s = .next a ∧ run 25 a = .next t ∧
      t = { s with op := .hash, done := true, found := false, le := false, st := .idle, i := 0, cur := false, r := 10,
                   msg := headerBytes s.hdr, sb := Config.SHA256 (previousHash (headerBytes s.hdr)),
                   prng := (deriveFromSeed (Config.SHA256 (previousHash (headerBytes s.hdr)))).1,
                   perm := derivePermutation (previousHash (headerBytes s.hdr)),
                   bufa := t.bufa, bufb := t.bufb, digest := hashMessage (headerBytes s.hdr) } ∧
      t.bufa = chain t.perm t.msg ∧ t.bufb = chainBeforeLast t.perm t.msg ∧
      ∀ (k : Nat) (u : State), k < 25 → run k a = .next u → u.busy = true

/-! ## NSS -/

/-- Step LOOPCHK: on to NWRITE exactly while NONCE is below NONCE_MAX as unsigned numbers and `cancel` reads 0, else to
EXITNF; only ST changes (R122). -/
def Obligations.LoopchkTestsRangeAndCancel : Prop :=
  ∀ s : State,
    (s.nonce.toNat < s.nonceMax.toNat ∧ s.cancel = false → exec .stLoopchk s = .next { s with st := .nwrite }) ∧
      (s.nonceMax.toNat ≤ s.nonce.toNat ∨ s.cancel = true → exec .stLoopchk s = .next { s with st := .exitnf })

/-- Step NWRITE: the nonce big-endian in MSG[76..79], R = 0, every other byte of MSG and every other register but ST as
before (R123). -/
def Obligations.NwriteStoresNonce : Prop :=
  ∀ s : State, ∃ t, exec .stNwrite s = .next t ∧ t = { s with msg := t.msg, r := 0, st := .round } ∧
    t.msg[76].toNat = s.nonce.toNat / 2 ^ 24 ∧ t.msg[77].toNat = s.nonce.toNat / 2 ^ 16 % 2 ^ 8 ∧
    t.msg[78].toNat = s.nonce.toNat / 2 ^ 8 % 2 ^ 8 ∧ t.msg[79].toNat = s.nonce.toNat % 2 ^ 8 ∧
    ∀ b : Fin 80, b.val < 76 → t.msg[b] = s.msg[b]

/-- Step NINC: NONCE plus 1 modulo 2^32, then LOOPCHK (R126). -/
def Obligations.NincIncrementsNonce : Prop :=
  ∀ s : State, ∃ t, exec .stNinc s = .next t ∧ t = { s with nonce := t.nonce, st := .loopchk } ∧
    t.nonce.toNat = (s.nonce.toNat + 1) % 2 ^ 32

/-- Step FOUNDX: the winning nonce, FOUND, the work count NONCE - NONCE_START modulo 2^32, and completion (R125). -/
def Obligations.FoundxReportsFirstMatch : Prop :=
  ∀ s : State, ∃ t, exec .stFoundx s = .next t ∧
    t = { s with winNonce := s.nonce, found := true, hashesDone := t.hashesDone, busy := false, done := true,
                 st := .idle } ∧
    t.hashesDone.toNat = (s.nonce.toNat + (2 ^ 32 - s.nonceStart.toNat)) % 2 ^ 32

/-- Step EXITNF: FOUND 0, the work count NONCE - NONCE_START modulo 2^32, plus 1 on 64 bits, and completion (R127). -/
def Obligations.ExitnfReportsExhaustion : Prop :=
  ∀ s : State, ∃ t, exec .stExitnf s = .next t ∧
    t = { s with found := false, hashesDone := t.hashesDone, busy := false, done := true, st := .idle } ∧
    t.hashesDone.toNat = (s.nonce.toNat + (2 ^ 32 - s.nonceStart.toNat)) % 2 ^ 32 + 1

/-- First match: if nonce n of the range passes and no earlier nonce of it does, a SEARCH undisturbed and not cancelled
completes with FOUND = 1, WIN_NONCE = n, HASHES_DONE = n - NONCE_START, and DIGEST the digest of n, within the steps of
the iterations up to n. -/
def Obligations.SearchFindsSmallestPassingNonce : Prop :=
  ∀ (s : State) (n : Word), s.busy = false → Undisturbed s → s.cancel = false →
    s.nonceStart.toNat ≤ n.toNat → n.toNat < s.nonceMax.toNat → noncePasses s n = true →
    (∀ m : Word, s.nonceStart.toNat ≤ m.toNat → m.toNat < n.toNat → noncePasses s m = false) →
    ∃ (a t : State) (k : Nat), exec .search s = .next a ∧ run k a = .next t ∧
      k ≤ 14 + 17 * (n.toNat - s.nonceStart.toNat + 1) ∧
      t.busy = false ∧ t.done = true ∧ t.found = true ∧ t.le = true ∧ t.winNonce = n ∧ t.nonce = n ∧
      t.hashesDone.toNat = n.toNat - s.nonceStart.toNat ∧ t.digest = nonceDigest s.hdr n ∧
      t.et = effectiveTarget s.bench s.target ∧ t.hdr = s.hdr ∧ t.target = s.target ∧
      t.nonceStart = s.nonceStart ∧ t.nonceMax = s.nonceMax ∧ t.bench = s.bench

/-- Exhaustion: if no nonce of a range with NONCE_START at most NONCE_MAX passes, a SEARCH undisturbed and not cancelled
completes with FOUND = 0, NONCE = NONCE_MAX and HASHES_DONE = NONCE_MAX - NONCE_START + 1. -/
def Obligations.SearchExhaustsRange : Prop :=
  ∀ s : State, s.busy = false → Undisturbed s → s.cancel = false → s.nonceStart.toNat ≤ s.nonceMax.toNat →
    (∀ m : Word, s.nonceStart.toNat ≤ m.toNat → m.toNat < s.nonceMax.toNat → noncePasses s m = false) →
    ∃ (a t : State) (k : Nat), exec .search s = .next a ∧ run k a = .next t ∧
      k ≤ 14 + 17 * (s.nonceMax.toNat - s.nonceStart.toNat) + 2 ∧
      t.busy = false ∧ t.done = true ∧ t.found = false ∧ t.le = false ∧ t.winNonce = 0 ∧ t.nonce = s.nonceMax ∧
      t.hashesDone.toNat = s.nonceMax.toNat - s.nonceStart.toNat + 1

/-- No iteration: with `cancel` at 1, or with NONCE_START at or above NONCE_MAX, a SEARCH performs its preamble (nineteen
header words converted, the derivation from them) and completes at the sixteenth step, not before, with FOUND = 0 and
HASHES_DONE = 1; MSG[76..79], the digest and the buffers are not touched. -/
def Obligations.SearchWithoutIteration : Prop :=
  ∀ s : State, s.busy = false → Undisturbed s → s.cancel = true ∨ s.nonceMax.toNat ≤ s.nonceStart.toNat →
    ∃ a t, exec .search s = .next a ∧ run 16 a = .next t ∧
      t = { s with op := .search, done := true, found := false, le := false, st := .idle, i := 0,
                   nonce := s.nonceStart, winNonce := 0, hashesDone := 1,
                   et := effectiveTarget s.bench s.target, msg := serialise 19 s.hdr s.msg,
                   sb := Config.SHA256 (previousHash (headerBytes s.hdr)),
                   prng := (deriveFromSeed (Config.SHA256 (previousHash (headerBytes s.hdr)))).1,
                   perm := derivePermutation (previousHash (headerBytes s.hdr)) } ∧
      (∀ b : Fin 80, 76 ≤ b.val → t.msg[b] = s.msg[b]) ∧
      ∀ (k : Nat) (u : State), k < 16 → run k a = .next u → u.busy = true

/-- The level of `cancel` has an effect on no instruction but LOOPCHK: with the other level every other instruction gives
the same outcome, but for the level itself. -/
def Obligations.CancelSeenOnlyByLoopchk : Prop :=
  ∀ (i : Instr) (s t : State) (level : Bool), i ≠ .stLoopchk → exec i s = .next t →
    exec i { s with cancel := level } = .next { t with cancel := level }

/-! ## DTC -/

/-- Step TLATCH: ET is TARGET with word 0 replaced by BENCH_MSW in benchmark mode, TARGET itself unchanged; SEARCH goes on
to CONV, COMPARE to CMP1 (R150). -/
def Obligations.TlatchLatchesEffectiveTarget : Prop :=
  ∀ s : State, s.op = .search ∨ s.op = .compare →
    ∃ t, exec .stTlatch s = .next t ∧ t = { s with et := t.et, st := if s.op = .search then .conv else .cmp1 } ∧
      (∀ j : Fin 8, j ≠ 0 → t.et[j] = s.target[j]) ∧
      t.et[0] = if s.bench then Config.benchMsw else s.target[0]

/-- Step CMP1: with the digest's high word (bytes 0..3, big-endian) at most ET[0], on to CMP2 with LE not written; else LE 0
and NINC in a SEARCH, completion in a COMPARE (R152). -/
def Obligations.Cmp1PreCheck : Prop :=
  ∀ s : State,
    let high := s.digest[0].toNat * 2 ^ 24 + s.digest[1].toNat * 2 ^ 16 + s.digest[2].toNat * 2 ^ 8 + s.digest[3].toNat
    (high ≤ s.et[0].toNat → exec .stCmp1 s = .next { s with st := .cmp2 }) ∧
      (s.et[0].toNat < high → s.op = .search → exec .stCmp1 s = .next { s with le := false, st := .ninc }) ∧
      (s.et[0].toNat < high → s.op = .compare →
        exec .stCmp1 s = .next { s with le := false, busy := false, done := true, st := .idle })

/-- Step CMP2: LE is 1 exactly when D256 <= T256; SEARCH goes on to FOUNDX or NINC by it, COMPARE completes (R153). -/
def Obligations.Cmp2FullCompare : Prop :=
  ∀ s : State,
    let pass := decide (digestNumber s.digest ≤ targetNumber s.et)
    (s.op = .search → exec .stCmp2 s = .next { s with le := pass, st := if pass then .foundx else .ninc }) ∧
      (s.op = .compare → exec .stCmp2 s = .next { s with le := pass, busy := false, done := true, st := .idle })

/-- The pre-check never rejects a digest that the full comparison accepts, so the two tiers are the one comparison
D256 <= T256 (R154). -/
def Obligations.TwoTiersEqualOneComparison : Prop :=
  ∀ (digest : Vector Byte 32) (et : Vector Word 8),
    (preCheck digest et && fullCompare digest et) = accepted digest et

/-- COMPARE, accepted and undisturbed, takes exactly two steps when the pre-check fails and three otherwise, BUSY before
the last of them, and leaves the effective target in ET and in LE whether DIGEST is accepted by it; nothing else it is said not to write changes (R155). -/
def Obligations.CompareComputesVerdict : Prop :=
  ∀ s : State, s.busy = false → Undisturbed s →
    ∃ a t, exec .compare s = .next a ∧
      run (if preCheck s.digest (effectiveTarget s.bench s.target) then 3 else 2) a = .next t ∧
      t = { s with op := .compare, done := true, found := false, st := .idle,
                   et := effectiveTarget s.bench s.target,
                   le := accepted s.digest (effectiveTarget s.bench s.target) } ∧
      ∀ (k : Nat) (u : State), k < (if preCheck s.digest (effectiveTarget s.bench s.target) then 3 else 2) →
        run k a = .next u → u.busy = true

/-! ## The bus -/

/-- An access that is not 32 bits wide, or not at a multiple of 4, or outside 0x000..0x3FF is a bus error of the
transaction; the host's step answers the error, and no register changes, ERR included (R41). -/
def Obligations.IllegalAccessChangesNothing : Prop :=
  ∀ (s : State) (addr width : Nat) (v : Word), width ≠ 4 ∨ addr % 4 ≠ 0 ∨ 0x400 ≤ addr →
    busAccess (.read addr width) s = .fault (.busError addr) ∧
      busAccess (.write addr width v) s = .fault (.busError addr) ∧
      hostStep (.read addr width) s = .next { s with resp := .error addr } ∧
      hostStep (.write addr width v) s = .next { s with resp := .error addr }

/-- A legal read answers the register's value, or 0 at a reserved offset and at CMD, BUSY or not, and changes no register
(R47); the values of the word registers are the fields of 10_state.md, those of the 64-bit registers their low and high
halves. (STATUS, PERM and the byte buffers have statements of their own.) -/
def Obligations.ReadsHaveNoSideEffect : Prop :=
  (∀ (s : State) (addr : Nat), addr % 4 = 0 → addr < 0x400 →
    ∃ v, hostStep (.read addr 4) s = .next { s with resp := .data v } ∧
      (∀ reg : Reg, regOffset reg = addr → v = readReg s reg) ∧ ((∀ reg : Reg, regOffset reg ≠ addr) → v = 0) ∧
      (addr = 0 → v = 0)) ∧
  ∀ s : State,
    (readReg s .ctrl).toNat = s.bench.toNat ∧ readReg s .nonceStart = s.nonceStart ∧
      readReg s .nonceMax = s.nonceMax ∧ readReg s .nonce = s.nonce ∧ readReg s .winNonce = s.winNonce ∧
      (readReg s .hashesLo).toNat = s.hashesDone.toNat % 2 ^ 32 ∧
      (readReg s .hashesHi).toNat = s.hashesDone.toNat / 2 ^ 32 ∧
      (readReg s .prngLo).toNat = s.prng.toNat % 2 ^ 32 ∧ (readReg s .prngHi).toNat = s.prng.toNat / 2 ^ 32 ∧
      (∀ j : Fin 8, readReg s (.target j) = s.target[j]) ∧ (∀ k : Fin 20, readReg s (.hdr k) = s.hdr[k]) ∧
      ∀ j : Fin 8, readReg s (.etarget j) = s.et[j]

/-- A write to an RW register while BUSY = 0: the register reads back the value (of CTRL bit 0 only) and every other
register of the window reads as before; the model's last answer apart, nothing but that register's storage changes. -/
def Obligations.WriteReachesOneRegister : Prop :=
  ∀ (s : State) (reg : Reg) (v : Word), s.busy = false → regWritable reg = true →
    ∃ t, hostStep (.write (regOffset reg) 4 v) s = .next t ∧
      (readReg t reg = if reg = .ctrl then v &&& 1 else v) ∧
      (∀ other : Reg, other ≠ reg → readReg t other = readReg s other) ∧
      t = { s with hdr := t.hdr, target := t.target, nonceStart := t.nonceStart, nonceMax := t.nonceMax,
                   bench := t.bench, sb := t.sb, resp := .ack }

/-- A write to an RW register while BUSY = 1 is dropped and sets ERR; a write to a read-only register or a reserved offset
is ignored, ERR unchanged, BUSY or not. That the bus acknowledges a write that no register takes (`resp := .ack`) is the
model's choice (log 3); the rule says only what the registers and ERR do. -/
def Obligations.RefusedAndIgnoredWrites : Prop :=
  (∀ (s : State) (reg : Reg) (v : Word), s.busy = true → regWritable reg = true →
    hostStep (.write (regOffset reg) 4 v) s = .next { s with err := true, resp := .ack }) ∧
  (∀ (s : State) (reg : Reg) (v : Word), regWritable reg = false → reg ≠ .cmd →
    hostStep (.write (regOffset reg) 4 v) s = .next { s with resp := .ack }) ∧
  ∀ (s : State) (addr : Nat) (v : Word), addr % 4 = 0 → addr < 0x400 → (∀ reg : Reg, regOffset reg ≠ addr) →
    hostStep (.write addr 4 v) s = .next { s with resp := .ack }

/-- The word views of the five byte buffers are big-endian, and a write of SEED[j] stores its four bytes big-endian and no
other byte of SB (R42). -/
def Obligations.WordViewsAreBigEndian : Prop :=
  (∀ (s : State) (n : Nat) (buf : Vector Byte n) (reg : Reg) (b : Nat) (h : b + 3 < n),
    (∃ j : Fin 8, reg = .seed j ∧ b = 4 * j.val ∧ buf.toList = s.sb.toList) ∨
      (∃ k : Fin 20, reg = .msgw k ∧ b = 4 * k.val ∧ buf.toList = s.msg.toList) ∨
      (∃ j : Fin 8, reg = .digestw j ∧ b = 4 * j.val ∧ buf.toList = s.digest.toList) ∨
      (∃ m : Fin 16, reg = .bufaw m ∧ b = 4 * m.val ∧ buf.toList = s.bufa.toList) ∨
      (∃ m : Fin 16, reg = .bufbw m ∧ b = 4 * m.val ∧ buf.toList = s.bufb.toList) →
    (readReg s reg).toNat =
      buf[b].toNat * 2 ^ 24 + buf[b + 1].toNat * 2 ^ 16 + buf[b + 2].toNat * 2 ^ 8 + buf[b + 3].toNat) ∧
  ∀ (s : State) (j : Fin 8) (v : Word) (b : Fin 32),
    (setReg (.seed j) v s).sb[b].toNat =
      if 4 * j.val ≤ b.val ∧ b.val < 4 * j.val + 4 then v.toNat / 2 ^ (8 * (3 - (b.val - 4 * j.val))) % 2 ^ 8
      else s.sb[b].toNat

/-- The fields of STATUS as the host reads it, and that a write to it is ignored (R30), whatever the bus answers to it
(log 3). STATE is ST by the codes of R65 and OP by the values of R29, as numbers. -/
def Obligations.StatusFields : Prop :=
  ∀ s : State,
    (∀ v : Word, ∃ resp, hostStep (.write 0x004 4 v) s = .next { s with resp := resp }) ∧
    let w := readReg s .status
    w.getLsbD 0 = s.busy ∧ w.getLsbD 1 = s.done ∧ w.getLsbD 2 = s.found ∧ w.getLsbD 3 = s.le ∧ w.getLsbD 4 = s.err ∧
      w.getLsbD 5 = s.fallback ∧ w.getLsbD 6 = s.cur ∧ w.getLsbD 7 = false ∧
      (∀ row ∈ [(SeqState.idle, 0), (.tlatch, 1), (.conv, 2), (.seedgen, 3), (.pinit, 4), (.shuf, 5), (.loopchk, 6),
          (.nwrite, 7), (.round, 8), (.dlatch, 9), (.cmp1, 10), (.cmp2, 11), (.foundx, 12), (.ninc, 13), (.exitnf, 14)],
        s.st = row.1 → (w.extractLsb' 8 5).toNat = row.2) ∧
      w.extractLsb' 13 3 = 0 ∧
      (∀ row ∈ [(RunOp.none, 0), (.deriveSeed, 1), (.deriveHdr, 2), (.hash, 3), (.search, 4), (.compare, 5)],
        s.op = row.1 → (w.extractLsb' 16 4).toNat = row.2) ∧
      (w.extractLsb' 20 4).toNat = s.r.val ∧ (w.extractLsb' 24 4).toNat = s.i.val ∧ w.extractLsb' 28 4 = 0

/-- The packed permutation: PERM_LO bits 4j+3:4j hold PERM[j], j = 0..7; PERM_HI bits 3:0, 7:4 and 11:8 hold PERM[8],
PERM[9] and PERM[10], and its bits 31:12 read 0 (R66). -/
def Obligations.PackedPermutation : Prop :=
  ∀ s : State,
    (∀ j : Fin 8, (readReg s .permLo).extractLsb' (4 * j.val) 4 = s.perm[j.val]) ∧
      (∀ j : Fin 3, (readReg s .permHi).extractLsb' (4 * j.val) 4 = s.perm[8 + j.val]) ∧
      (readReg s .permHi).extractLsb' 12 20 = 0

/-! ## The machine -/

/-- A step runs the decoded instruction: when the next step fetches a word that decodes to i, the step is exec of i on the
state with its action taken off the schedule. The schedule is the model's (log 1), and so is the acknowledge that the bus
answers to every CMD write, a refused one too (DEDUCED, log 3). -/
def Obligations.StepRunsDecodedInstruction : Prop :=
  ∀ (s : State) (e : Encoded) (i : Instr), fetch s = some e → decode e = .ok i →
    (∀ c : BitVec 5, e = .st c → step s = exec i { s with sched := s.sched.tail }) ∧
      ∀ w : Word, e = .cmd w → step s = answer .ack (exec i { s with sched := s.sched.tail })

/-- No step of the machine faults or is refused, in any state and whatever action comes (R172: "no step can fault"). -/
def Obligations.EveryStepGoesOn : Prop := ∀ s : State, stepSafe s

/-- While BUSY = 0 the sequencer has no step: at its turn nothing changes but that the turn is taken off the schedule. -/
def Obligations.IdleBlockHasNoStep : Prop :=
  (∀ s : State, exec .stIdle s = .next s) ∧
    ∀ s : State, s.busy = false → s.rst = false → nextAction s = .tick →
      step s = .next { s with sched := s.sched.tail }

/-- The sequencer never writes a host register: HDR, TARGET, NONCE_START, NONCE_MAX and CTRL, the pins and the last bus
answer keep their values at every step of the sequencer, in any state. -/
def Obligations.SequencerKeepsHostRegisters : Prop :=
  ∀ s t : State, s.rst = false → nextAction s = .tick → step s = .next t →
    t.hdr = s.hdr ∧ t.target = s.target ∧ t.nonceStart = s.nonceStart ∧ t.nonceMax = s.nonceMax ∧
      t.bench = s.bench ∧ t.err = s.err ∧ t.cancel = s.cancel ∧ t.rst = s.rst ∧ t.resp = s.resp

/-- ERR rises in exactly four cases (R191): at a step that is a legal bus write with rst released, to CMD while BUSY, to
CMD with a word that has a bit of 31:4 set or a reserved opcode, or to an RW register while BUSY; and in each of them it
does rise. It falls only in a step that is a CMD write of CLRF or SRESET while BUSY = 0, or with rst asserted; and its value changes
no other result of any instruction. -/
def Obligations.CausesOfErr : Prop :=
  (∀ (i : Instr) (s t : State) (e : Bool), exec i s = .next t →
    ∃ e', exec i { s with err := e } = .next { t with err := e' }) ∧
  ∀ s t : State, step s = .next t → s.rst = false →
    (t.err = true ∧ s.err = false ↔ s.err = false ∧
      ∃ (addr : Nat) (v : Word), nextAction s = .host (.write addr 4 v) ∧ addr % 4 = 0 ∧ addr < 0x400 ∧
        ((addr = 0 ∧ (s.busy = true ∨ 16 ≤ v.toNat ∨ (7 ≤ v.toNat ∧ v.toNat ≤ 14))) ∨
          (s.busy = true ∧ ∃ reg, regOffset reg = addr ∧ regWritable reg = true))) ∧
    (t.err = false ∧ s.err = true → nextAction s = .reset true ∨
      (s.busy = false ∧ (nextAction s = .host (.write 0 4 6) ∨ nextAction s = .host (.write 0 4 15))))

/-- Reset: asserting `rst` puts every piece of state at its reset value whatever the block was doing, and while `rst` is
asserted every step leaves it there, whatever the action; only the pins, the schedule and the bus answer move, and a read
answers the reset value. -/
def Obligations.ResetWinsOverEverything : Prop :=
  (∀ s : State, nextAction s = .reset true → ∃ t, step s = .next t ∧ t.rst = true ∧ resetBlock t = t ∧ t.cancel = s.cancel) ∧
    (∀ s t : State, s.rst = true → step s = .next t → resetBlock t = t) ∧
    ∀ (s : State) (reg : Reg), s.rst = true → nextAction s = .host (.read (regOffset reg) 4) →
      ∃ t, step s = .next t ∧ t.resp = .data (readReg State.reset reg)

/-- The machine after reset: the host reads STATUS 0, PERM_LO 0x76543210, PERM_HI 0x00000A98 and 0 in every other register;
ST is IDLE, PERM the identity; and SRESET leaves the same reads (R33). -/
def Obligations.ResetValuesAsRead : Prop :=
  readReg State.reset .permLo = 0x76543210 ∧ readReg State.reset .permHi = 0x00000A98 ∧
    (∀ reg : Reg, reg ≠ .permLo → reg ≠ .permHi → readReg State.reset reg = 0) ∧ State.reset.st = .idle ∧
    (∀ j : Fin 11, State.reset.perm[j].toNat = j.val) ∧
    ∀ s : State, s.busy = false → ∃ t, exec .sreset s = .next t ∧ ∀ reg : Reg, readReg t reg = readReg State.reset reg

/-- The machine right after reset meets the invariants. -/
def Obligations.ResetMeetsInvariants : Prop := Inv State.reset

/-- PERM stays a permutation of 0..10 and FALLBACK stays 0 at every step, whatever the action (R88, R193). -/
def Obligations.PermutationStaysValid : Prop :=
  ∀ s t : State, PermInv s → step s = .next t → PermInv t

/-- The control invariant, at every step: ST = IDLE exactly when BUSY = 0, DONE and FOUND 0 while BUSY, ST a state of the
command in OP; together with the counters' invariant, which the last SHUF step needs. -/
def Obligations.ControlStaysCoherent : Prop :=
  ∀ s t : State, ControlInv s → ChainInv s → step s = .next t → ControlInv t ∧ ChainInv t

/-- All invariants of the machine are kept by every step: the permutation, the control state, the buffer roles, the search
registers (no nonce wraps), LE, and the block held at reset. -/
def Obligations.StepKeepsInvariants : Prop :=
  ∀ s t : State, Inv s → step s = .next t → Inv t

/-- Every run command reaches `Complete()`: from a state that meets the invariants, undisturbed, the block is idle after at
most 14 + 17 (2^32 - 1) + 2 steps and BUSY until then; if it was BUSY, then DONE is 1 and ST is IDLE there (R171), and OP is
the command that ran. -/
def Obligations.EveryCommandCompletes : Prop :=
  ∀ s : State, Inv s → Undisturbed s →
    ∃ (k : Nat) (t : State), k ≤ 14 + 17 * (2 ^ 32 - 1) + 2 ∧ run k s = .next t ∧ t.busy = false ∧
      (s.busy = true → t.done = true ∧ t.st = .idle ∧ t.op = s.op) ∧
      ∀ (j : Nat) (u : State), j < k → run j s = .next u → u.busy = true
end

