-- ==== Sys2Proof/Laws/State.lean ====
section
/-! SUPPORT. The fields of the state after each shared update, each true by unfolding, so that no later proof unfolds a
record update. -/

namespace Sys2Proof.Machine

/-! `start` -/

@[simp] theorem start_hdr (op : RunOp) (st : SeqState) (s : State) : (start op st s).hdr = s.hdr := rfl
@[simp] theorem start_target (op : RunOp) (st : SeqState) (s : State) : (start op st s).target = s.target := rfl
@[simp] theorem start_nonceStart (op : RunOp) (st : SeqState) (s : State) : (start op st s).nonceStart = s.nonceStart := rfl
@[simp] theorem start_nonceMax (op : RunOp) (st : SeqState) (s : State) : (start op st s).nonceMax = s.nonceMax := rfl
@[simp] theorem start_bench (op : RunOp) (st : SeqState) (s : State) : (start op st s).bench = s.bench := rfl
@[simp] theorem start_sb (op : RunOp) (st : SeqState) (s : State) : (start op st s).sb = s.sb := rfl
@[simp] theorem start_prng (op : RunOp) (st : SeqState) (s : State) : (start op st s).prng = s.prng := rfl
@[simp] theorem start_i (op : RunOp) (st : SeqState) (s : State) : (start op st s).i = s.i := rfl
@[simp] theorem start_perm (op : RunOp) (st : SeqState) (s : State) : (start op st s).perm = s.perm := rfl
@[simp] theorem start_msg (op : RunOp) (st : SeqState) (s : State) : (start op st s).msg = s.msg := rfl
@[simp] theorem start_bufa (op : RunOp) (st : SeqState) (s : State) : (start op st s).bufa = s.bufa := rfl
@[simp] theorem start_bufb (op : RunOp) (st : SeqState) (s : State) : (start op st s).bufb = s.bufb := rfl
@[simp] theorem start_cur (op : RunOp) (st : SeqState) (s : State) : (start op st s).cur = s.cur := rfl
@[simp] theorem start_r (op : RunOp) (st : SeqState) (s : State) : (start op st s).r = s.r := rfl
@[simp] theorem start_digest (op : RunOp) (st : SeqState) (s : State) : (start op st s).digest = s.digest := rfl
@[simp] theorem start_et (op : RunOp) (st : SeqState) (s : State) : (start op st s).et = s.et := rfl
@[simp] theorem start_nonce (op : RunOp) (st : SeqState) (s : State) : (start op st s).nonce = s.nonce := rfl
@[simp] theorem start_winNonce (op : RunOp) (st : SeqState) (s : State) : (start op st s).winNonce = s.winNonce := rfl
@[simp] theorem start_hashesDone (op : RunOp) (st : SeqState) (s : State) : (start op st s).hashesDone = s.hashesDone := rfl
@[simp] theorem start_busy (op : RunOp) (st : SeqState) (s : State) : (start op st s).busy = true := rfl
@[simp] theorem start_done (op : RunOp) (st : SeqState) (s : State) : (start op st s).done = false := rfl
@[simp] theorem start_found (op : RunOp) (st : SeqState) (s : State) : (start op st s).found = false := rfl
@[simp] theorem start_le (op : RunOp) (st : SeqState) (s : State) : (start op st s).le = false := rfl
@[simp] theorem start_err (op : RunOp) (st : SeqState) (s : State) : (start op st s).err = s.err := rfl
@[simp] theorem start_fallback (op : RunOp) (st : SeqState) (s : State) : (start op st s).fallback = s.fallback := rfl
@[simp] theorem start_st (op : RunOp) (st : SeqState) (s : State) : (start op st s).st = st := rfl
@[simp] theorem start_op (op : RunOp) (st : SeqState) (s : State) : (start op st s).op = op := rfl
@[simp] theorem start_cancel (op : RunOp) (st : SeqState) (s : State) : (start op st s).cancel = s.cancel := rfl
@[simp] theorem start_rst (op : RunOp) (st : SeqState) (s : State) : (start op st s).rst = s.rst := rfl
@[simp] theorem start_sched (op : RunOp) (st : SeqState) (s : State) : (start op st s).sched = s.sched := rfl
@[simp] theorem start_resp (op : RunOp) (st : SeqState) (s : State) : (start op st s).resp = s.resp := rfl

/-! `complete` -/

@[simp] theorem complete_hdr (s : State) : (complete s).hdr = s.hdr := rfl
@[simp] theorem complete_target (s : State) : (complete s).target = s.target := rfl
@[simp] theorem complete_nonceStart (s : State) : (complete s).nonceStart = s.nonceStart := rfl
@[simp] theorem complete_nonceMax (s : State) : (complete s).nonceMax = s.nonceMax := rfl
@[simp] theorem complete_bench (s : State) : (complete s).bench = s.bench := rfl
@[simp] theorem complete_sb (s : State) : (complete s).sb = s.sb := rfl
@[simp] theorem complete_prng (s : State) : (complete s).prng = s.prng := rfl
@[simp] theorem complete_i (s : State) : (complete s).i = s.i := rfl
@[simp] theorem complete_perm (s : State) : (complete s).perm = s.perm := rfl
@[simp] theorem complete_msg (s : State) : (complete s).msg = s.msg := rfl
@[simp] theorem complete_bufa (s : State) : (complete s).bufa = s.bufa := rfl
@[simp] theorem complete_bufb (s : State) : (complete s).bufb = s.bufb := rfl
@[simp] theorem complete_cur (s : State) : (complete s).cur = s.cur := rfl
@[simp] theorem complete_r (s : State) : (complete s).r = s.r := rfl
@[simp] theorem complete_digest (s : State) : (complete s).digest = s.digest := rfl
@[simp] theorem complete_et (s : State) : (complete s).et = s.et := rfl
@[simp] theorem complete_nonce (s : State) : (complete s).nonce = s.nonce := rfl
@[simp] theorem complete_winNonce (s : State) : (complete s).winNonce = s.winNonce := rfl
@[simp] theorem complete_hashesDone (s : State) : (complete s).hashesDone = s.hashesDone := rfl
@[simp] theorem complete_busy (s : State) : (complete s).busy = false := rfl
@[simp] theorem complete_done (s : State) : (complete s).done = true := rfl
@[simp] theorem complete_found (s : State) : (complete s).found = s.found := rfl
@[simp] theorem complete_le (s : State) : (complete s).le = s.le := rfl
@[simp] theorem complete_err (s : State) : (complete s).err = s.err := rfl
@[simp] theorem complete_fallback (s : State) : (complete s).fallback = s.fallback := rfl
@[simp] theorem complete_st (s : State) : (complete s).st = .idle := rfl
@[simp] theorem complete_op (s : State) : (complete s).op = s.op := rfl
@[simp] theorem complete_cancel (s : State) : (complete s).cancel = s.cancel := rfl
@[simp] theorem complete_rst (s : State) : (complete s).rst = s.rst := rfl
@[simp] theorem complete_sched (s : State) : (complete s).sched = s.sched := rfl
@[simp] theorem complete_resp (s : State) : (complete s).resp = s.resp := rfl

/-! `setErr` -/

@[simp] theorem setErr_hdr (s : State) : (setErr s).hdr = s.hdr := rfl
@[simp] theorem setErr_target (s : State) : (setErr s).target = s.target := rfl
@[simp] theorem setErr_nonceStart (s : State) : (setErr s).nonceStart = s.nonceStart := rfl
@[simp] theorem setErr_nonceMax (s : State) : (setErr s).nonceMax = s.nonceMax := rfl
@[simp] theorem setErr_bench (s : State) : (setErr s).bench = s.bench := rfl
@[simp] theorem setErr_sb (s : State) : (setErr s).sb = s.sb := rfl
@[simp] theorem setErr_prng (s : State) : (setErr s).prng = s.prng := rfl
@[simp] theorem setErr_i (s : State) : (setErr s).i = s.i := rfl
@[simp] theorem setErr_perm (s : State) : (setErr s).perm = s.perm := rfl
@[simp] theorem setErr_msg (s : State) : (setErr s).msg = s.msg := rfl
@[simp] theorem setErr_bufa (s : State) : (setErr s).bufa = s.bufa := rfl
@[simp] theorem setErr_bufb (s : State) : (setErr s).bufb = s.bufb := rfl
@[simp] theorem setErr_cur (s : State) : (setErr s).cur = s.cur := rfl
@[simp] theorem setErr_r (s : State) : (setErr s).r = s.r := rfl
@[simp] theorem setErr_digest (s : State) : (setErr s).digest = s.digest := rfl
@[simp] theorem setErr_et (s : State) : (setErr s).et = s.et := rfl
@[simp] theorem setErr_nonce (s : State) : (setErr s).nonce = s.nonce := rfl
@[simp] theorem setErr_winNonce (s : State) : (setErr s).winNonce = s.winNonce := rfl
@[simp] theorem setErr_hashesDone (s : State) : (setErr s).hashesDone = s.hashesDone := rfl
@[simp] theorem setErr_busy (s : State) : (setErr s).busy = s.busy := rfl
@[simp] theorem setErr_done (s : State) : (setErr s).done = s.done := rfl
@[simp] theorem setErr_found (s : State) : (setErr s).found = s.found := rfl
@[simp] theorem setErr_le (s : State) : (setErr s).le = s.le := rfl
@[simp] theorem setErr_err (s : State) : (setErr s).err = true := rfl
@[simp] theorem setErr_fallback (s : State) : (setErr s).fallback = s.fallback := rfl
@[simp] theorem setErr_st (s : State) : (setErr s).st = s.st := rfl
@[simp] theorem setErr_op (s : State) : (setErr s).op = s.op := rfl
@[simp] theorem setErr_cancel (s : State) : (setErr s).cancel = s.cancel := rfl
@[simp] theorem setErr_rst (s : State) : (setErr s).rst = s.rst := rfl
@[simp] theorem setErr_sched (s : State) : (setErr s).sched = s.sched := rfl
@[simp] theorem setErr_resp (s : State) : (setErr s).resp = s.resp := rfl

/-! `resetBlock` -/

@[simp] theorem resetBlock_hdr (s : State) : (resetBlock s).hdr = State.reset.hdr := rfl
@[simp] theorem resetBlock_target (s : State) : (resetBlock s).target = State.reset.target := rfl
@[simp] theorem resetBlock_nonceStart (s : State) : (resetBlock s).nonceStart = State.reset.nonceStart := rfl
@[simp] theorem resetBlock_nonceMax (s : State) : (resetBlock s).nonceMax = State.reset.nonceMax := rfl
@[simp] theorem resetBlock_bench (s : State) : (resetBlock s).bench = State.reset.bench := rfl
@[simp] theorem resetBlock_sb (s : State) : (resetBlock s).sb = State.reset.sb := rfl
@[simp] theorem resetBlock_prng (s : State) : (resetBlock s).prng = State.reset.prng := rfl
@[simp] theorem resetBlock_i (s : State) : (resetBlock s).i = State.reset.i := rfl
@[simp] theorem resetBlock_perm (s : State) : (resetBlock s).perm = State.reset.perm := rfl
@[simp] theorem resetBlock_msg (s : State) : (resetBlock s).msg = State.reset.msg := rfl
@[simp] theorem resetBlock_bufa (s : State) : (resetBlock s).bufa = State.reset.bufa := rfl
@[simp] theorem resetBlock_bufb (s : State) : (resetBlock s).bufb = State.reset.bufb := rfl
@[simp] theorem resetBlock_cur (s : State) : (resetBlock s).cur = State.reset.cur := rfl
@[simp] theorem resetBlock_r (s : State) : (resetBlock s).r = State.reset.r := rfl
@[simp] theorem resetBlock_digest (s : State) : (resetBlock s).digest = State.reset.digest := rfl
@[simp] theorem resetBlock_et (s : State) : (resetBlock s).et = State.reset.et := rfl
@[simp] theorem resetBlock_nonce (s : State) : (resetBlock s).nonce = State.reset.nonce := rfl
@[simp] theorem resetBlock_winNonce (s : State) : (resetBlock s).winNonce = State.reset.winNonce := rfl
@[simp] theorem resetBlock_hashesDone (s : State) : (resetBlock s).hashesDone = State.reset.hashesDone := rfl
@[simp] theorem resetBlock_busy (s : State) : (resetBlock s).busy = State.reset.busy := rfl
@[simp] theorem resetBlock_done (s : State) : (resetBlock s).done = State.reset.done := rfl
@[simp] theorem resetBlock_found (s : State) : (resetBlock s).found = State.reset.found := rfl
@[simp] theorem resetBlock_le (s : State) : (resetBlock s).le = State.reset.le := rfl
@[simp] theorem resetBlock_err (s : State) : (resetBlock s).err = State.reset.err := rfl
@[simp] theorem resetBlock_fallback (s : State) : (resetBlock s).fallback = State.reset.fallback := rfl
@[simp] theorem resetBlock_st (s : State) : (resetBlock s).st = State.reset.st := rfl
@[simp] theorem resetBlock_op (s : State) : (resetBlock s).op = State.reset.op := rfl
@[simp] theorem resetBlock_cancel (s : State) : (resetBlock s).cancel = s.cancel := rfl
@[simp] theorem resetBlock_rst (s : State) : (resetBlock s).rst = s.rst := rfl
@[simp] theorem resetBlock_sched (s : State) : (resetBlock s).sched = s.sched := rfl
@[simp] theorem resetBlock_resp (s : State) : (resetBlock s).resp = s.resp := rfl

/-- A second reset changes nothing more. -/
@[simp] theorem resetBlock_resetBlock (s : State) : resetBlock (resetBlock s) = resetBlock s := rfl

/-- Reset leaves the machine after reset as it is. -/
@[simp] theorem resetBlock_reset : resetBlock State.reset = State.reset := rfl

/-- The bus answer is no state of the block. -/
@[simp] theorem resetBlock_withResp (s : State) (a : BusResp) :
    resetBlock { s with resp := a } = { resetBlock s with resp := a } := rfl

end Sys2Proof.Machine
end

