-- ==== Sys2Proof/Laws/Ops.lean ====
section
/-! SUPPORT. What each shared operation can do, said once. -/

namespace Sys2Proof.Machine

/-- An accepted command has its own effect. -/
theorem acceptCmd_idle (effect : State → State) (s : State) (h : s.busy = false) :
    acceptCmd effect s = .next (effect s) := by
  simp [acceptCmd, h]

/-- A command while BUSY sets ERR. -/
theorem acceptCmd_busy (effect : State → State) (s : State) (h : s.busy = true) :
    acceptCmd effect s = .next (setErr s) := by
  simp [acceptCmd, h]

/-- A CMD write answers a next state: refused with ERR while BUSY, else the command's effect. -/
theorem acceptCmd_cases {effect : State → State} {s t : State} (h : acceptCmd effect s = .next t) :
    (s.busy = true ∧ t = setErr s) ∨ (s.busy = false ∧ t = effect s) := by
  unfold acceptCmd at h
  split at h <;> simp_all

/-- Round 0. -/
theorem runRound_zero (f : List Byte → Vector Byte 64) (s : State) (h : s.r = 0) :
    runRound f s = { s with bufa := f s.msg.toList, cur := false, r := 1, st := .round } := by
  simp [runRound, h]

/-- A later round writes the buffer that is not current, swaps the roles, and goes to DLATCH after round 10. -/
theorem runRound_later (f : List Byte → Vector Byte 64) (s : State) (h : s.r ≠ 0) :
    ∃ t, runRound f s = t ∧
      t = { s with bufa := t.bufa, bufb := t.bufb, cur := !s.cur, r := t.r, st := t.st } ∧
      (s.cur = false → t.bufb = f s.bufa.toList ∧ t.bufa = s.bufa) ∧
      (s.cur = true → t.bufa = f s.bufb.toList ∧ t.bufb = s.bufb) ∧
      (s.r.val = 10 → t.r = s.r ∧ t.st = .dlatch) ∧ (s.r.val ≠ 10 → t.r.val = s.r.val + 1 ∧ t.st = .round) := by
  refine ⟨_, rfl, ?_⟩
  unfold runRound
  rw [if_neg h]
  cases hc : s.cur <;> by_cases h10 : s.r.val = 10 <;> simp [h10]

/-- A round writes the buffers, CUR, R and ST and nothing else. -/
theorem runRound_frame (f : List Byte → Vector Byte 64) (s : State) :
    ∃ t, runRound f s = t ∧ t = { s with bufa := t.bufa, bufb := t.bufb, cur := t.cur, r := t.r, st := t.st } := by
  refine ⟨_, rfl, ?_⟩
  unfold runRound
  split
  · rfl
  · cases s.cur <;> by_cases h10 : s.r.val = 10 <;> simp [h10]

/-- In range, a slot code selects its own unit. -/
theorem slotUnit_inRange (sel : Sel) (h : sel.toNat ≤ 10) : (slotUnit sel).val = sel.toNat := by
  have h' : sel.toNat < 11 := by omega
  simp [slotUnit, h']

/-- Out of range, unit 0. -/
theorem slotUnit_outOfRange (sel : Sel) (h : 10 < sel.toNat) : slotUnit sel = 0 := by
  have h' : ¬sel.toNat < 11 := by omega
  simp [slotUnit, h']

/-- Where the last SHUF step can go. -/
theorem shufDone_cases (s : State) :
    ((s.op = .deriveSeed ∨ s.op = .deriveHdr) ∧ shufDone s = complete s) ∨
      (s.op = .hash ∧ shufDone s = { s with r := 0, st := .round }) ∨
      (s.op = .search ∧ shufDone s = { s with st := .loopchk }) ∨
      ((s.op = .none ∨ s.op = .compare) ∧ shufDone s = s) := by
  unfold shufDone
  cases s.op <;> simp

/-- Where a finished comparison can go. -/
theorem compareDone_cases (next : SeqState) (s : State) :
    (s.op = .search ∧ compareDone next s = { s with st := next }) ∨
      (s.op = .compare ∧ compareDone next s = complete s) ∨
      (s.op ≠ .search ∧ s.op ≠ .compare ∧ compareDone next s = s) := by
  unfold compareDone
  cases s.op <;> simp

/-- A SHUF step: nothing at I = 0, else one iteration to I = `j`, going on as `shufDone` says at I = 1. -/
theorem execStShuf_cases (s : State) :
    (s.i = 0 ∧ execStShuf s = .next s) ∨
      ∃ (j : Fin 11) (t : State), j.val + 1 = s.i.val ∧
        t = { s with prng := xorshift64 s.prng, perm := s.perm.swap s.i.val (shufIndex (xorshift64 s.prng) s.i).val,
                     i := j } ∧
        ((s.i = 1 ∧ execStShuf s = .next (shufDone t)) ∨ (s.i ≠ 1 ∧ execStShuf s = .next { t with st := .shuf })) := by
  by_cases h : s.i = 0
  · exact .inl ⟨h, by simp [execStShuf, h]⟩
  · have hne : s.i.val ≠ 0 := fun e => h (Fin.ext e)
    refine .inr ⟨⟨s.i.val - 1, by omega⟩, _, by simp only; omega, rfl, ?_⟩
    by_cases h1 : s.i = 1
    · exact .inl ⟨h1, by simp [execStShuf, h1]⟩
    · exact .inr ⟨h1, by simp [execStShuf, h, h1]⟩

/-- xorshift64 of 0 is 0 (40_permutation.md R85). -/
@[simp] theorem xorshift64_zero : xorshift64 0 = 0 := by decide

/-- Setting the bus answer of a next state. -/
@[simp] theorem answer_next (a : BusResp) (s : State) : answer a (.next s) = .next { s with resp := a } := rfl

/-- The sequencer's turn runs the decoded state code. -/
theorem runEncoded_ok {e : Encoded} {i : Instr} (h : decode e = .ok i) (s : State) : runEncoded e s = exec i s := by
  simp [runEncoded, h]

/-- Every CMD word decodes, so a CMD write runs an instruction. -/
theorem runEncoded_cmd (w : Word) (s : State) : runEncoded (.cmd w) s = exec (decodeCmd w) s := rfl

/-- A transaction is a bus error exactly when it is not legal, and a bus error answers and changes nothing else. -/
theorem hostStep_illegal_read (s : State) (addr width : Nat) (h : accessLegal addr width = false) :
    hostStep (.read addr width) s = .next { s with resp := .error addr } := by
  simp [hostStep, busAccess, h]

/-- An illegal write answers the error and changes nothing else. -/
theorem hostStep_illegal_write (s : State) (addr width : Nat) (v : Word) (h : accessLegal addr width = false) :
    hostStep (.write addr width v) s = .next { s with resp := .error addr } := by
  simp [hostStep, busAccess, h]

/-- A legal read answers the value. -/
theorem hostStep_read (s : State) (addr width : Nat) (h : accessLegal addr width = true) :
    hostStep (.read addr width) s = .next { s with resp := .data (readOffset s addr) } := by
  simp [hostStep, busAccess, h]

/-- What a write at a legal offset does: a command, a stored or a refused register value, or nothing. -/
theorem writeOffset_cases (addr : Nat) (v : Word) (s : State) :
    (regAt addr = some .cmd ∧ writeOffset addr v s = exec (decodeCmd v) s) ∨
      (∃ reg, regAt addr = some reg ∧ regWritable reg = true ∧ s.busy = true ∧
        writeOffset addr v s = .next (setErr s)) ∨
      (∃ reg, regAt addr = some reg ∧ regWritable reg = true ∧ s.busy = false ∧
        writeOffset addr v s = .next (setReg reg v s)) ∨
      ((∀ reg, regAt addr = some reg → regWritable reg = false ∧ reg ≠ .cmd) ∧
        writeOffset addr v s = .next s) := by
  unfold writeOffset
  cases h : regAt addr with
  | none => simp
  | some reg => cases reg <;> cases hb : s.busy <;> simp [regWritable, runEncoded_cmd]

/-- A step while `rst` is released performs the next action on the state with the action taken off. -/
theorem step_running (s : State) (h : s.rst = false) :
    step s = actRunning (nextAction s) { s with sched := s.sched.tail } := by
  simp [step, act, h]

/-- A step while `rst` is asserted acts on the block at its reset values. -/
theorem step_inReset (s : State) (h : s.rst = true) :
    step s = actInReset (nextAction s) (resetBlock { s with sched := s.sched.tail }) := by
  simp [step, act, h]

end Sys2Proof.Machine
end

