-- ==== Sys2Proof/Laws/BigStep.lean ====
section
/-! SUPPORT. Bounds of the two compared numbers, and how runs compose. -/

namespace Sys2Proof.Machine

/-- Folding bytes onto a number keeps it below the next power. -/
theorem foldBytes_lt (l : List Byte) (n : Nat) :
    l.foldl (fun n b => n * 256 + b.toNat) n < (n + 1) * 256 ^ l.length := by
  induction l generalizing n with
  | nil => simp
  | cons b l ih =>
    have hb := b.isLt
    have hs : n * 256 + b.toNat + 1 ≤ (n + 1) * 256 := by omega
    calc _ < (n * 256 + b.toNat + 1) * 256 ^ l.length := ih _
      _ ≤ (n + 1) * 256 * 256 ^ l.length := Nat.mul_le_mul_right _ hs
      _ = (n + 1) * 256 ^ (l.length + 1) := by ring

/-- `D256` is a 256-bit number. -/
theorem digestNumber_lt (digest : Vector Byte 32) : digestNumber digest < 256 ^ 32 := by
  have h := foldBytes_lt digest.toList 0
  rw [Vector.length_toList, Nat.zero_add, Nat.one_mul] at h
  exact h

/-- The greatest target accepts every digest. -/
theorem accepted_of_greatest (digest : Vector Byte 32) (et : Vector Word 8) (h : 256 ^ 32 ≤ targetNumber et + 1) :
    accepted digest et = true := by
  have hd := digestNumber_lt digest
  unfold accepted
  rw [decide_eq_true_eq]
  exact Nat.le_of_lt_succ (Nat.lt_of_lt_of_le hd h)

/-- The eleventh round takes the output of the tenth (41_hashchain.md R103). -/
theorem chain_eq_last (perm : Vector Sel 11) (msg : Vector Byte 80) :
    chain perm msg = slotFn perm[10] (chainBeforeLast perm msg).toList := rfl

/-- No step: the state itself. -/
@[simp] theorem run_zero (s : State) : run 0 s = .next s := rfl

/-- A run goes on from the next state of its first step. -/
theorem run_succ {s t : State} (k : Nat) (h : step s = .next t) : run (k + 1) s = run k t := by
  simp [run, h]

/-- Two runs in a row are one. -/
theorem run_add {s t : State} (j k : Nat) (h : run j s = .next t) : run (j + k) s = run k t := by
  induction j generalizing s with
  | zero => simp only [run_zero, Host.Outcome.next.injEq] at h; rw [h, Nat.zero_add]
  | succ j ih =>
    rw [Nat.succ_add]
    cases hs : step s with
    | next u => rw [run_succ _ hs] at h ⊢; exact ih h
    | fault f => simp [run, hs] at h
    | refused r => simp [run, hs] at h

/-- An undisturbed step is the sequencer's turn. -/
theorem step_undisturbed {s : State} (h : Undisturbed s) : step s = seqStep s := by
  obtain ⟨hs, hr⟩ := h
  have hn : nextAction s = .tick := by simp [nextAction, hs]
  rw [step_running s hr, hn, hs]
  show seqStep { s with sched := [] } = seqStep s
  rw [← hs]

/-- An undisturbed step while BUSY runs the decoded state. -/
theorem step_busy {s : State} {i : Instr} (h : Undisturbed s) (hb : s.busy = true)
    (hd : decode (.st (seqCode s.st)) = .ok i) : step s = exec i s := by
  rw [step_undisturbed h, seqStep, seqWord, if_pos hb, runEncoded_ok hd]

/-- The machine's runs are the runs of the host's interface. -/
theorem core_run (k : Nat) (s : State) :
    Host.Core.run { State := State, Fault := Fault, Refusal := Refusal, step := step, reset := State.reset } k s =
      run k s := by
  induction k generalizing s with
  | zero => rfl
  | succ k ih =>
    simp only [Host.Core.run, run]
    cases step s with
    | next t => exact ih t
    | fault f => rfl
    | refused r => rfl

end Sys2Proof.Machine
end

