-- ==== Sys2Proof/Machine/Instances.lean ====
section
/-! DEFINITION. Several instances of the block: the product of independent copies of the machine, interleaved arbitrarily
(60_exceptions.md R200, 20_memory.md R55). The machine of Core.lean is one instance; log 15. -/

namespace Sys2Proof.Machine

/-- The instances of a platform; an instance has no identifier but its place (60_exceptions.md R200). -/
abbrev Instances := List State

/-- One step of the instance at place `k`; the others do not move, and a place with no instance does nothing
(60_exceptions.md R200). -/
def stepInstance (k : Nat) (p : Instances) : Instances :=
  match p[k]? with
  | none => p
  | some s =>
    match step s with
    | .next t => p.set k t
    | .fault _ | .refused _ => p

/-- An interleaving: the places whose instances step, in order (60_exceptions.md R200). -/
def runInstances (order : List Nat) (p : Instances) : Instances := order.foldl (fun q k => stepInstance k q) p

/-- One cancellation source wired to the pins of all instances (60_exceptions.md R200, 10_state.md R27): it changes the
level each of them sees next. -/
def shareCancel (level : Bool) (p : Instances) : Instances :=
  p.map fun s => { s with sched := .cancel level :: s.sched }

end Sys2Proof.Machine
end

