-- ==== Sys2Proof/Laws/Instances.lean ====
section
/-! SUPPORT. Instances share nothing (20_memory.md R55): a step of one leaves every other as it is. -/

namespace Sys2Proof.Machine

theorem stepInstance_other (j k : Nat) (p : Instances) (h : j ≠ k) : (stepInstance k p)[j]? = p[j]? := by
  unfold stepInstance
  split
  · rfl
  · split <;> first | rfl | exact List.getElem?_set_ne h.symm

theorem runInstances_other (order : List Nat) (j : Nat) (p : Instances) (h : j ∉ order) :
    (runInstances order p)[j]? = p[j]? := by
  induction order generalizing p with
  | nil => rfl
  | cons k ks ih =>
    rw [List.mem_cons, not_or] at h
    exact (ih (stepInstance k p) h.2).trans (stepInstance_other j k p h.1)

end Sys2Proof.Machine
end

