-- ==== Sys2Proof/Laws/Operands.lean ====
section
/-! SUPPORT. The byte and word views as arithmetic, and reads of written words. -/

namespace Sys2Proof.Machine

/-- The number of a concatenation. -/
theorem append_toNat_eq {m n : Nat} (x : BitVec m) (y : BitVec n) :
    (x ++ y).toNat = x.toNat * 2 ^ n + y.toNat := by
  rw [BitVec.toNat_append, ← Nat.shiftLeft_add_eq_or_of_lt y.isLt, Nat.shiftLeft_eq]

/-- `BE32` as a number: the first byte is the most significant. -/
theorem be32_toNat (b0 b1 b2 b3 : Byte) :
    (be32 b0 b1 b2 b3).toNat = b0.toNat * 2 ^ 24 + b1.toNat * 2 ^ 16 + b2.toNat * 2 ^ 8 + b3.toNat := by
  simp only [be32, append_toNat_eq]
  omega

/-- Byte `j` of `BE32bytes` as a number. -/
theorem be32Byte_toNat (v : Word) (j : Nat) : (be32Byte v j).toNat = v.toNat / 2 ^ (8 * (3 - j)) % 2 ^ 8 := by
  simp [be32Byte, BitVec.extractLsb'_toNat, Nat.shiftRight_eq_div_pow]

/-- `BE32` of `BE32bytes` is the word. -/
@[simp] theorem be32_be32Byte (v : Word) : be32 (be32Byte v 0) (be32Byte v 1) (be32Byte v 2) (be32Byte v 3) = v := by
  apply BitVec.eq_of_toNat_eq
  have h := v.isLt
  rw [be32_toNat]
  simp only [be32Byte_toNat]
  omega

/-- A byte of a buffer after a word write. -/
theorem setWordAt_get {n : Nat} (buf : Vector Byte n) (a : Nat) (v : Word) (b : Nat) (h : b < n) :
    (setWordAt buf a v)[b] = if a ≤ b ∧ b < a + 4 then be32Byte v (b - a) else buf[b] := by
  simp [setWordAt]

/-- The word read back where it was written. -/
theorem wordAt_setWordAt_same {n : Nat} (buf : Vector Byte n) (a : Nat) (v : Word) (h : a + 3 < n) :
    wordAt (setWordAt buf a v) a h = v := by
  simp [wordAt, setWordAt_get]

/-- A word read where no byte of it was written. -/
theorem wordAt_setWordAt_other {n : Nat} (buf : Vector Byte n) (a b : Nat) (v : Word) (h : b + 3 < n)
    (apart : b + 4 ≤ a ∨ a + 4 ≤ b) : wordAt (setWordAt buf a v) b h = wordAt buf b h := by
  have out : ∀ c, b ≤ c → c < b + 4 → ∀ hc, (setWordAt buf a v)[c]'hc = buf[c] := fun c _ _ hc => by
    rw [setWordAt_get, if_neg (by omega)]
  simp only [wordAt]
  rw [out b (by omega) (by omega), out (b + 1) (by omega) (by omega), out (b + 2) (by omega) (by omega),
    out (b + 3) (by omega) (by omega)]

/-- A byte of a window. -/
theorem window_get {n : Nat} (buf : Vector Byte n) (a len : Nat) (h : a + len ≤ n) (j : Nat) (hj : j < len) :
    (window buf a len h)[j] = buf[a + j] := by
  simp [window]

/-- A byte of the serialised message. -/
theorem serialise_get (n : Nat) (hdr : Vector Word 20) (msg : Vector Byte 80) (b : Nat) (h : b < 80) :
    (serialise n hdr msg)[b] = if b / 4 < n then be32Byte hdr[b / 4] (b % 4) else msg[b] := by
  simp [serialise]

end Sys2Proof.Machine
end

