-- ==== Sys2Proof/Laws/PerInstr.lean ====
section
/-! SUPPORT. The laws said of every instruction, one lemma per constructor. -/

namespace Sys2Proof.Laws

/-- A well-formed instruction's word is a word of its format's width in the opcode table: 32 bits for CMD, 4 for SEL, 5
for ST (30_encoding.md R60, R63, R65). -/
def TableWord.Statement (i : Instr) : Prop :=
  i.wf = true → ∃ nbits w : Nat, nbits ∈ [32, 4, 5] ∧ w < 2 ^ nbits ∧ tableWord nbits w = some (encode i)

theorem TableWord.nop : TableWord.Statement .nop :=
  fun _ => ⟨32, 0, by decide, by decide, rfl⟩

theorem TableWord.deriveSeed : TableWord.Statement .deriveSeed :=
  fun _ => ⟨32, 1, by decide, by decide, rfl⟩

theorem TableWord.deriveHdr : TableWord.Statement .deriveHdr :=
  fun _ => ⟨32, 2, by decide, by decide, rfl⟩

theorem TableWord.hash : TableWord.Statement .hash :=
  fun _ => ⟨32, 3, by decide, by decide, rfl⟩

theorem TableWord.search : TableWord.Statement .search :=
  fun _ => ⟨32, 4, by decide, by decide, rfl⟩

theorem TableWord.compare : TableWord.Statement .compare :=
  fun _ => ⟨32, 5, by decide, by decide, rfl⟩

theorem TableWord.clrf : TableWord.Statement .clrf :=
  fun _ => ⟨32, 6, by decide, by decide, rfl⟩

theorem TableWord.reserved7 : TableWord.Statement .reserved7 :=
  fun _ => ⟨32, 7, by decide, by decide, rfl⟩

theorem TableWord.reserved8 : TableWord.Statement .reserved8 :=
  fun _ => ⟨32, 8, by decide, by decide, rfl⟩

theorem TableWord.reserved9 : TableWord.Statement .reserved9 :=
  fun _ => ⟨32, 9, by decide, by decide, rfl⟩

theorem TableWord.reservedA : TableWord.Statement .reservedA :=
  fun _ => ⟨32, 10, by decide, by decide, rfl⟩

theorem TableWord.reservedB : TableWord.Statement .reservedB :=
  fun _ => ⟨32, 11, by decide, by decide, rfl⟩

theorem TableWord.reservedC : TableWord.Statement .reservedC :=
  fun _ => ⟨32, 12, by decide, by decide, rfl⟩

theorem TableWord.reservedD : TableWord.Statement .reservedD :=
  fun _ => ⟨32, 13, by decide, by decide, rfl⟩

theorem TableWord.reservedE : TableWord.Statement .reservedE :=
  fun _ => ⟨32, 14, by decide, by decide, rfl⟩

theorem TableWord.sreset : TableWord.Statement .sreset :=
  fun _ => ⟨32, 15, by decide, by decide, rfl⟩

theorem TableWord.reservedHighbits (zero : BitVec 28) (opc : BitVec 4) :
    TableWord.Statement (.reservedHighbits zero opc) := by
  intro _
  have h := (zero ++ opc).isLt
  refine ⟨32, (zero ++ opc).toNat, by decide, h, ?_⟩
  simpa [tableWord, encode] using h

theorem TableWord.blake512 : TableWord.Statement .blake512 :=
  fun _ => ⟨4, 0, by decide, by decide, rfl⟩

theorem TableWord.bmw512 : TableWord.Statement .bmw512 :=
  fun _ => ⟨4, 1, by decide, by decide, rfl⟩

theorem TableWord.groestl512 : TableWord.Statement .groestl512 :=
  fun _ => ⟨4, 2, by decide, by decide, rfl⟩

theorem TableWord.skein512 : TableWord.Statement .skein512 :=
  fun _ => ⟨4, 3, by decide, by decide, rfl⟩

theorem TableWord.jh512 : TableWord.Statement .jh512 :=
  fun _ => ⟨4, 4, by decide, by decide, rfl⟩

theorem TableWord.keccak512 : TableWord.Statement .keccak512 :=
  fun _ => ⟨4, 5, by decide, by decide, rfl⟩

theorem TableWord.luffa512 : TableWord.Statement .luffa512 :=
  fun _ => ⟨4, 6, by decide, by decide, rfl⟩

theorem TableWord.cubehash512 : TableWord.Statement .cubehash512 :=
  fun _ => ⟨4, 7, by decide, by decide, rfl⟩

theorem TableWord.shavite512 : TableWord.Statement .shavite512 :=
  fun _ => ⟨4, 8, by decide, by decide, rfl⟩

theorem TableWord.simd512 : TableWord.Statement .simd512 :=
  fun _ => ⟨4, 9, by decide, by decide, rfl⟩

theorem TableWord.echo512 : TableWord.Statement .echo512 :=
  fun _ => ⟨4, 10, by decide, by decide, rfl⟩

theorem TableWord.invalidB : TableWord.Statement .invalidB :=
  fun _ => ⟨4, 11, by decide, by decide, rfl⟩

theorem TableWord.invalidC : TableWord.Statement .invalidC :=
  fun _ => ⟨4, 12, by decide, by decide, rfl⟩

theorem TableWord.invalidD : TableWord.Statement .invalidD :=
  fun _ => ⟨4, 13, by decide, by decide, rfl⟩

theorem TableWord.invalidE : TableWord.Statement .invalidE :=
  fun _ => ⟨4, 14, by decide, by decide, rfl⟩

theorem TableWord.invalidF : TableWord.Statement .invalidF :=
  fun _ => ⟨4, 15, by decide, by decide, rfl⟩

theorem TableWord.stIdle : TableWord.Statement .stIdle :=
  fun _ => ⟨5, 0, by decide, by decide, rfl⟩

theorem TableWord.stTlatch : TableWord.Statement .stTlatch :=
  fun _ => ⟨5, 1, by decide, by decide, rfl⟩

theorem TableWord.stConv : TableWord.Statement .stConv :=
  fun _ => ⟨5, 2, by decide, by decide, rfl⟩

theorem TableWord.stSeedgen : TableWord.Statement .stSeedgen :=
  fun _ => ⟨5, 3, by decide, by decide, rfl⟩

theorem TableWord.stPinit : TableWord.Statement .stPinit :=
  fun _ => ⟨5, 4, by decide, by decide, rfl⟩

theorem TableWord.stShuf : TableWord.Statement .stShuf :=
  fun _ => ⟨5, 5, by decide, by decide, rfl⟩

theorem TableWord.stLoopchk : TableWord.Statement .stLoopchk :=
  fun _ => ⟨5, 6, by decide, by decide, rfl⟩

theorem TableWord.stNwrite : TableWord.Statement .stNwrite :=
  fun _ => ⟨5, 7, by decide, by decide, rfl⟩

theorem TableWord.stRound : TableWord.Statement .stRound :=
  fun _ => ⟨5, 8, by decide, by decide, rfl⟩

theorem TableWord.stDlatch : TableWord.Statement .stDlatch :=
  fun _ => ⟨5, 9, by decide, by decide, rfl⟩

theorem TableWord.stCmp1 : TableWord.Statement .stCmp1 :=
  fun _ => ⟨5, 10, by decide, by decide, rfl⟩

theorem TableWord.stCmp2 : TableWord.Statement .stCmp2 :=
  fun _ => ⟨5, 11, by decide, by decide, rfl⟩

theorem TableWord.stFoundx : TableWord.Statement .stFoundx :=
  fun _ => ⟨5, 12, by decide, by decide, rfl⟩

theorem TableWord.stNinc : TableWord.Statement .stNinc :=
  fun _ => ⟨5, 13, by decide, by decide, rfl⟩

theorem TableWord.stExitnf : TableWord.Statement .stExitnf :=
  fun _ => ⟨5, 14, by decide, by decide, rfl⟩

end Sys2Proof.Laws
end

