-- ==== Sys2Proof/Laws/Safety.lean ====
section
/-! SUPPORT. The permutation invariant under the one operation that moves entries, and what it says of the mux. -/

namespace Sys2Proof.Machine

/-- Exchanging two entries keeps a permutation (40_permutation.md R88). -/
theorem permValid_swap {p : Vector Sel 11} (h : PermValid p) (i j : Fin 11) : PermValid (p.swap i.val j.val) :=
  (Vector.swap_perm (xs := p) i.isLt j.isLt).toArray.toList.trans h

/-- No entry of a permutation is an out-of-range slot code (60_exceptions.md R193). -/
theorem permValid_slot {p : Vector Sel 11} (h : PermValid p) (k : Fin 11) : slotInvalid p[k] = false := by
  have hk : p[k] ∈ identityPerm.toList := h.subset (by simp [Vector.mem_toList_iff])
  revert hk
  generalize p[k] = q
  revert q
  decide

theorem permValid_identity : PermValid identityPerm := List.Perm.refl _

/-- The block at its reset values meets the permutation invariant, whatever the pins, the schedule and the last answer are. -/
theorem resetBlock_permInv (s : State) : PermInv (resetBlock s) := ⟨List.Perm.refl _, rfl⟩

end Sys2Proof.Machine
end

