-- ==== Sys2Proof/Machine/Script.lean ====
section
/-! DEFINITION. The host script notation (30_encoding.md R69, R70): statements and the actions they expand to. The
notation has no meaning to the hardware (92_eei_decisions.md D26); log 14. -/

namespace Sys2Proof.Machine

/-- The statements of R69 and the pseudo-statements of R70. WAIT carries the number of sequencer steps before each of its
polls (R69: any number), AT the number of sequencer steps to the moment its condition first holds (`momentOf`). -/
inductive ScriptStmt where
  | wr (reg : Reg) (v : Word)
  | rd (reg : Reg)
  /-- the mnemonic of a CMD row -/
  | cmd (i : Instr)
  | wait (gaps : List Nat)
  | cancel (level : Bool)
  | reset
  | at (steps : Nat) (stmt : ScriptStmt)
  | ldhdr (bytes : Vector Byte 80)
  | ldhdrw (words : Vector Word 20)
  | ldtgt (words : Vector Word 8)
  | ldseed (bytes : Vector Byte 32)
  | rddigest
  | rdperm
deriving DecidableEq, Repr

/-- `WR <reg>, <value>` (R69). -/
def writeAction (reg : Reg) (v : Word) : Action := .host (.write (regOffset reg) 4 v)

/-- `RD <reg>` (R69). -/
def readAction (reg : Reg) : Action := .host (.read (regOffset reg) 4)

/-- The actions a statement expands to, in order (R69, R70). -/
def expandStmt : ScriptStmt → List Action
  | .wr reg v => [writeAction reg v]
  | .rd reg => [readAction reg]
  | .cmd i =>
    match encode i with
    | .cmd w => [writeAction .cmd w]
    | .sel _ | .st _ => []
  | .wait gaps => gaps.flatMap fun k => List.replicate k Action.tick ++ [readAction .status]
  | .cancel level => [.cancel level]
  | .reset => [.reset true, .reset false]
  | .at steps stmt => List.replicate steps Action.tick ++ expandStmt stmt
  | .ldhdr bytes => List.ofFn fun k : Fin 20 => writeAction (.hdr k) (wordAt bytes (4 * k.val))
  | .ldhdrw words => List.ofFn fun k : Fin 20 => writeAction (.hdr k) words[k]
  | .ldtgt words => List.ofFn fun j : Fin 8 => writeAction (.target j) words[j]
  | .ldseed bytes => List.ofFn fun j : Fin 8 => writeAction (.seed j) (wordAt bytes (4 * j.val))
  | .rddigest => List.ofFn fun j : Fin 8 => readAction (.digestw j)
  | .rdperm => [readAction .permLo, readAction .permHi]

/-- A script's actions (R69: "executed in order"). -/
def expandScript (script : List ScriptStmt) : List Action := script.flatMap expandStmt

/-- The number of sequencer steps, at most `fuel`, after which a condition first holds (R69, AT). -/
def momentOf (cond : State → Bool) : Nat → State → Option Nat
  | 0, s => if cond s then some 0 else none
  | k + 1, s =>
    if cond s then some 0
    else
      match seqStep s with
      | .next t => (momentOf cond k t).map (· + 1)
      | .fault _ | .refused _ => none

end Sys2Proof.Machine
end

