-- ==== Sys2Proof/Machine/Sha256.lean ====
section
/-! DEFINITION. The reference SHA-256 of 45_primitives.md section 3, for the one input length the block uses (32 bytes,
one block). The spec supplies it from general knowledge, as the intended value of the parameter SHA256; the machine does
not use it and no statement rests on it (PRESUMED, safe: log 11). -/

namespace Sys2Proof.Machine

/-- `Ch(x,y,z)`. -/
def shaCh (x y z : Word) : Word := (x &&& y) ^^^ (~~~x &&& z)

/-- `Maj(x,y,z)`. -/
def shaMaj (x y z : Word) : Word := (x &&& y) ^^^ (x &&& z) ^^^ (y &&& z)

/-- `S0(x)`. -/
def shaBigS0 (x : Word) : Word := x.rotateRight 2 ^^^ x.rotateRight 13 ^^^ x.rotateRight 22

/-- `S1(x)`. -/
def shaBigS1 (x : Word) : Word := x.rotateRight 6 ^^^ x.rotateRight 11 ^^^ x.rotateRight 25

/-- `s0(x)`. -/
def shaSmallS0 (x : Word) : Word := x.rotateRight 7 ^^^ x.rotateRight 18 ^^^ (x >>> 3)

/-- `s1(x)`. -/
def shaSmallS1 (x : Word) : Word := x.rotateRight 17 ^^^ x.rotateRight 19 ^^^ (x >>> 10)

/-- The initial hash value H0..H7. -/
def shaInit : Vector Word 8 :=
  #v[0x6a09e667, 0xbb67ae85, 0x3c6ef372, 0xa54ff53a, 0x510e527f, 0x9b05688c, 0x1f83d9ab, 0x5be0cd19]

/-- The round constants K[0..63]. -/
def shaK : List Word :=
  [0x428a2f98, 0x71374491, 0xb5c0fbcf, 0xe9b5dba5, 0x3956c25b, 0x59f111f1, 0x923f82a4, 0xab1c5ed5] ++
  [0xd807aa98, 0x12835b01, 0x243185be, 0x550c7dc3, 0x72be5d74, 0x80deb1fe, 0x9bdc06a7, 0xc19bf174] ++
  [0xe49b69c1, 0xefbe4786, 0x0fc19dc6, 0x240ca1cc, 0x2de92c6f, 0x4a7484aa, 0x5cb0a9dc, 0x76f988da] ++
  [0x983e5152, 0xa831c66d, 0xb00327c8, 0xbf597fc7, 0xc6e00bf3, 0xd5a79147, 0x06ca6351, 0x14292967] ++
  [0x27b70a85, 0x2e1b2138, 0x4d2c6dfc, 0x53380d13, 0x650a7354, 0x766a0abb, 0x81c2c92e, 0x92722c85] ++
  [0xa2bfe8a1, 0xa81a664b, 0xc24b8b70, 0xc76c51a3, 0xd192e819, 0xd6990624, 0xf40e3585, 0x106aa070] ++
  [0x19a4c116, 0x1e376c08, 0x2748774c, 0x34b0bcb5, 0x391c0cb3, 0x4ed8aa4a, 0x5b9cca4f, 0x682e6ff3] ++
  [0x748f82ee, 0x78a5636f, 0x84c87814, 0x8cc70208, 0x90befffa, 0xa4506ceb, 0xbef9a3f7, 0xc67178f2]

/-- The sixteen words of the padded block of a 32-byte message: the message, 0x80, zeros, the length 256 in bits. -/
def shaBlock (m : Vector Byte 32) : List Word :=
  (List.ofFn fun t : Fin 8 => wordAt m (4 * t.val)) ++ [0x80000000, 0, 0, 0, 0, 0, 0, 0x100]

/-- `n` more words of the message schedule, kept newest first. -/
def shaSchedule : Nat → List Word → List Word
  | 0, w => w
  | n + 1, w =>
    let wt := shaSmallS1 (w.getD 1 0) + w.getD 6 0 + shaSmallS0 (w.getD 14 0) + w.getD 15 0
    shaSchedule n (wt :: w)

/-- One round of the compression loop on (a, .., h), with K[t] and W[t]. -/
def shaRound (v : Vector Word 8) (kw : Word × Word) : Vector Word 8 :=
  let t1 := v[7] + shaBigS1 v[4] + shaCh v[4] v[5] v[6] + kw.1 + kw.2
  let t2 := shaBigS0 v[0] + shaMaj v[0] v[1] v[2]
  #v[t1 + t2, v[0], v[1], v[2], v[3] + t1, v[4], v[5], v[6]]

/-- SHA-256 of a 32-byte message. -/
def sha256Reference (m : Vector Byte 32) : Vector Byte 32 :=
  let w := (shaSchedule 48 (shaBlock m).reverse).reverse
  let v := (shaK.zip w).foldl shaRound shaInit
  Vector.ofFn fun b : Fin 32 => be32Byte (shaInit[b.val / 4] + v[b.val / 4]) (b.val % 4)

end Sys2Proof.Machine
end

