-- ==== Sys2Proof/Tests/Slice0.lean ====
section
/-! SUPPORT. Small tests; every expected value is from the spec (the vector or rule is named), none from the model. The
last part shows for each statement with hypotheses a state and operands that meet them. -/

namespace Sys2Proof.Tests

open Sys2Proof.Machine

/-- A field of the next state, none when there is none. -/
def field {α : Type} (o : Host.Outcome State Fault Refusal) (f : State → α) : Option α :=
  match o with
  | .next t => some (f t)
  | .fault _ => none
  | .refused _ => none

/-- The state after reset with a command in progress at a sequencer state. -/
def running (op : RunOp) (st : SeqState) : State := { State.reset with op := op, st := st, busy := true }

/-! ## Well-formedness and legality -/

/-- R62: the reserved class needs a bit of 31:4. -/
theorem test_wf_refuses_zero_highbits : (Instr.reservedHighbits 0 3).wf = false := by decide

theorem test_wf_accepts_highbits : (Instr.reservedHighbits 1 3).wf = true := by decide

/-- V52: an access at 0x002, at 0x400, and an 8-bit access are refused. -/
theorem test_access_refused :
    accessLegal 0x002 4 = false ∧ accessLegal 0x400 4 = false ∧ accessLegal 0x004 1 = false ∧
      accessLegal 0x3FC 4 = true := by decide

/-! ## Decoding, from the tables R61, R63 and R65 -/

/-- Each CMD row's 32 bits; the reserved class with bit 4 set (V51: 0x13), and with bit 31 set (V51: 0x80000004). -/
theorem test_decode_cmd_rows :
    decode (.cmd 0b00000000000000000000000000000000) = .ok .nop ∧
      decode (.cmd 0b00000000000000000000000000000001) = .ok .deriveSeed ∧
      decode (.cmd 0b00000000000000000000000000000010) = .ok .deriveHdr ∧
      decode (.cmd 0b00000000000000000000000000000011) = .ok .hash ∧
      decode (.cmd 0b00000000000000000000000000000100) = .ok .search ∧
      decode (.cmd 0b00000000000000000000000000000101) = .ok .compare ∧
      decode (.cmd 0b00000000000000000000000000000110) = .ok .clrf ∧
      decode (.cmd 0b00000000000000000000000000000111) = .ok .reserved7 ∧
      decode (.cmd 0b00000000000000000000000000001000) = .ok .reserved8 ∧
      decode (.cmd 0b00000000000000000000000000001001) = .ok .reserved9 ∧
      decode (.cmd 0b00000000000000000000000000001010) = .ok .reservedA ∧
      decode (.cmd 0b00000000000000000000000000001011) = .ok .reservedB ∧
      decode (.cmd 0b00000000000000000000000000001100) = .ok .reservedC ∧
      decode (.cmd 0b00000000000000000000000000001101) = .ok .reservedD ∧
      decode (.cmd 0b00000000000000000000000000001110) = .ok .reservedE ∧
      decode (.cmd 0b00000000000000000000000000001111) = .ok .sreset ∧
      decode (.cmd 0x00000013) = .ok (.reservedHighbits 0x0000001 3) ∧
      decode (.cmd 0x80000004) = .ok (.reservedHighbits 0x8000000 4) := by decide

/-- Each SEL row's 4 bits (R63). -/
theorem test_decode_sel_rows :
    decode (.sel 0b0000) = .ok .blake512 ∧
      decode (.sel 0b0001) = .ok .bmw512 ∧
      decode (.sel 0b0010) = .ok .groestl512 ∧
      decode (.sel 0b0011) = .ok .skein512 ∧
      decode (.sel 0b0100) = .ok .jh512 ∧
      decode (.sel 0b0101) = .ok .keccak512 ∧
      decode (.sel 0b0110) = .ok .luffa512 ∧
      decode (.sel 0b0111) = .ok .cubehash512 ∧
      decode (.sel 0b1000) = .ok .shavite512 ∧
      decode (.sel 0b1001) = .ok .simd512 ∧
      decode (.sel 0b1010) = .ok .echo512 ∧
      decode (.sel 0b1011) = .ok .invalidB ∧
      decode (.sel 0b1100) = .ok .invalidC ∧
      decode (.sel 0b1101) = .ok .invalidD ∧
      decode (.sel 0b1110) = .ok .invalidE ∧
      decode (.sel 0b1111) = .ok .invalidF := by decide

/-- Each ST row's 5 bits (R65), and the codes 15 and 31 that no rule produces. -/
theorem test_decode_st_rows :
    decode (.st 0b00000) = .ok .stIdle ∧
      decode (.st 0b00001) = .ok .stTlatch ∧
      decode (.st 0b00010) = .ok .stConv ∧
      decode (.st 0b00011) = .ok .stSeedgen ∧
      decode (.st 0b00100) = .ok .stPinit ∧
      decode (.st 0b00101) = .ok .stShuf ∧
      decode (.st 0b00110) = .ok .stLoopchk ∧
      decode (.st 0b00111) = .ok .stNwrite ∧
      decode (.st 0b01000) = .ok .stRound ∧
      decode (.st 0b01001) = .ok .stDlatch ∧
      decode (.st 0b01010) = .ok .stCmp1 ∧
      decode (.st 0b01011) = .ok .stCmp2 ∧
      decode (.st 0b01100) = .ok .stFoundx ∧
      decode (.st 0b01101) = .ok .stNinc ∧
      decode (.st 0b01110) = .ok .stExitnf ∧
      decode (.st 0b01111) = .error (.reservedStateCode 15) ∧
      decode (.st 0b11111) = .error (.reservedStateCode 31) := by decide

/-- Table words in the numbering of spec/opcode_table.json. -/
theorem test_table_words :
    decodeTableWord 32 4 = some .search ∧ decodeTableWord 4 4 = some .jh512 ∧ decodeTableWord 5 4 = some .stPinit ∧
      decodeTableWord 32 0x13 = some (.reservedHighbits 1 3) ∧ decodeTableWord 5 15 = none ∧
      decodeTableWord 4 16 = none := by decide

/-- A placed CMD word runs at the next step: SEARCH is accepted (R165's example: BUSY 1, DONE 0, STATE 1, OP 4). -/
theorem test_placed_search_runs :
    field (step (State.reset.withFetchWord 32 4)) statusWord = some 0x00040101 := by decide

/-- A placed state code runs at the next step: PINIT leaves I = 10 (R84). -/
theorem test_placed_pinit_runs : field (step (State.reset.withFetchWord 5 4)) (·.i) = some 10 := by decide

/-- A placed slot code runs at the next step: an invalid one sets FALLBACK (V14). -/
theorem test_placed_invalid_slot_runs :
    field (step (State.reset.withFetchWord 4 13)) (fun t => (t.fallback, t.r, t.st)) = some (true, 1, .round) := by
  decide

/-! ## PG -/

/-- V6. -/
theorem test_xorshift_vectors :
    xorshift64 1 = 0x0000000040822041 ∧ xorshift64 0x8000000000000000 = 0x8100000000000000 ∧
      xorshift64 0xFFFFFFFFFFFFFFFF = 0x000000003F801FC0 ∧ xorshift64 0x0123456789ABCDEF = 0x3F2800D6569E01B4 := by
  decide

/-- V6: the modulus is unsigned and of the whole 64-bit value. -/
theorem test_shuffle_modulus :
    shufIndex 0xA8B066BA460152A7 10 = 6 ∧ shufIndex 0xFFFFFFFFFFFFFFFF 10 = 4 := by decide

/-- V1, the first SHUF step. -/
theorem test_shuf_first_step :
    field (exec .stShuf { running .deriveHdr .shuf with prng := 0xC1294015BEF65A92, i := 10 })
        (fun t => (t.prng, t.perm, t.i, t.st)) =
      some (0xA8B066BA460152A7, #v[0, 1, 2, 3, 4, 5, 10, 7, 8, 9, 6], 9, .shuf) := by decide

/-- V1, the last SHUF step: the self-swap at I = 1, and completion (STATUS 0x00020002). -/
theorem test_shuf_last_step :
    field (exec .stShuf { running .deriveHdr .shuf with
        prng := 0x0E9F191731D7F8D4, perm := #v[4, 5, 3, 8, 9, 10, 1, 7, 0, 2, 6], i := 1 })
        (fun t => (t.prng, t.perm, statusWord t)) =
      some (0xE5C1AE72511AE225, #v[4, 5, 3, 8, 9, 10, 1, 7, 0, 2, 6], 0x00020002) := by decide

/-- The seed of V1 as it stands in SB. -/
def seedV1 : Vector Byte 32 :=
  #v[0x66, 0x68, 0x7a, 0xad, 0xf8, 0x62, 0xbd, 0x77, 0x6c, 0x8f, 0xc1, 0x8b, 0x8e, 0x9f, 0x8e, 0x20,
    0x08, 0x97, 0x14, 0x85, 0x6e, 0xe2, 0x33, 0xb3, 0x90, 0x2a, 0x59, 0x1d, 0x0d, 0x5f, 0x29, 0x25]

/-- V1, PINIT. -/
theorem test_pinit_folds_seed :
    field (exec .stPinit { running .deriveHdr .pinit with sb := seedV1 }) (fun t => (t.prng, t.i, t.perm[10])) =
      some (0xC1294015BEF65A92, 10, 10) := by decide

/-- V1: the permutation of that seed. -/
theorem test_derive_from_seed_v1 :
    deriveFromSeed seedV1 = (0xE5C1AE72511AE225, #v[4, 5, 3, 8, 9, 10, 1, 7, 0, 2, 6]) := by decide

/-- 45_primitives.md section 3: SHA-256 of 32 zero bytes (the reference text only, not the machine's SHA256). -/
theorem test_sha256_reference : sha256Reference (Vector.replicate 32 0) = seedV1 := by decide +kernel

/-- R82's example: HDR[1] = 0x04050607 gives MSG[4..7] = 04 05 06 07; in a SEARCH word 19 is not converted. -/
theorem test_conv_byte_order :
    field (exec .stConv { running .hash .conv with hdr := State.reset.hdr.set 1 0x04050607 })
        (fun t => (t.msg[4], t.msg[5], t.msg[6], t.msg[7])) = some (0x04, 0x05, 0x06, 0x07) ∧
      field (exec .stConv { running .search .conv with hdr := State.reset.hdr.set 19 0x4C4D4E4F })
        (fun t => (t.msg[76], t.msg[79])) = some (0, 0) := by decide

/-! ## HCE -/

/-- R103's example: with CUR = 0 and R = 1 the round writes BUFB from BUFA, CUR 1, R 2. -/
theorem test_round_one_writes_bufb :
    field (exec .stRound { running .hash .round with r := 1 }) (fun t => (t.cur, t.r, t.st)) =
      some (true, 2, .round) ∧
      field (exec .stRound { running .hash .round with r := 1 }) (·.bufb) =
        some (Config.CF 1 (Vector.replicate 64 0).toList) := ⟨by decide, rfl⟩

/-- V14: PERM[0] forced to 12 runs CF[0] on the message and sets FALLBACK. -/
theorem test_invalid_slot_falls_back :
    field (exec .stRound { running .hash .round with perm := State.reset.perm.set 0 12 })
        (fun t => (t.fallback, t.bufa)) = some (true, Config.CF 0 (Vector.replicate 80 0).toList) := rfl

/-- R104: DLATCH in a HASH completes; STATUS 0x00A30002 with R = 10 (V10). -/
theorem test_dlatch_completes_hash :
    field (exec .stDlatch { running .hash .dlatch with r := 10 }) statusWord = some 0x00A30002 := by decide

/-! ## NSS -/

/-- R122's example: NONCE = NONCE_MAX = 105 leaves the loop; and `cancel` leaves it too. -/
theorem test_loopchk_exits :
    field (exec .stLoopchk { running .search .loopchk with nonce := 105, nonceMax := 105 }) (·.st) = some .exitnf ∧
      field (exec .stLoopchk { running .search .loopchk with nonceMax := 105, cancel := true }) (·.st) =
        some .exitnf ∧
      field (exec .stLoopchk { running .search .loopchk with nonce := 104, nonceMax := 105 }) (·.st) =
        some .nwrite := by decide

/-- R67's example: NONCE = 0x000000A8 gives MSG[76..79] = 00 00 00 a8. -/
theorem test_nwrite_big_endian :
    field (exec .stNwrite { running .search .nwrite with nonce := 0x000000A8 })
        (fun t => (t.msg[76], t.msg[77], t.msg[78], t.msg[79])) = some (0, 0, 0, 0xA8) := by decide

/-- R125's example, with the STATUS of V20: NONCE = 168, NONCE_START = 0. -/
theorem test_foundx_reports :
    field (exec .stFoundx { running .search .foundx with nonce := 168, r := 10, le := true })
        (fun t => (t.winNonce, t.hashesDone, statusWord t)) = some (168, 168, 0x00A4000E) := by decide

/-- R127's example and V32: HASHES_DONE is 6 for 100..105, and 2^32 for 0..FFFFFFFF. -/
theorem test_exitnf_counts :
    field (exec .stExitnf { running .search .exitnf with nonceStart := 100, nonce := 105 }) (·.hashesDone) = some 6 ∧
      field (exec .stExitnf { running .search .exitnf with nonce := 0xFFFFFFFF })
        (fun t => (readReg t .hashesHi, readReg t .hashesLo)) = some (1, 0) := by decide

/-! ## DTC -/

/-- A state of a COMPARE with the given first, fifth and last words of DIGEST and ET, zeros and the vector's fill else. -/
def comparing (st : SeqState) (d t : Vector Word 8) : State :=
  { running .compare st with
    digest := Vector.ofFn fun b : Fin 32 => be32Byte d[b.val / 4] (b.val % 4)
    et := t }

/-- V47: 80000000 against 7FFFFFFF fails the pre-check (unsigned). -/
theorem test_cmp1_unsigned :
    field (exec .stCmp1 (comparing .cmp1 #v[0x80000000, 0, 0, 0, 0, 0, 0, 0]
        (Vector.replicate 8 0xFFFFFFFF |>.set 0 0x7FFFFFFF))) (fun t => (t.le, t.st, t.done)) =
      some (false, .idle, true) := by decide

/-- V49c and V49d: equal in words 0..3, word 4 decides. -/
theorem test_cmp2_word_four_decides :
    field (exec .stCmp2 (comparing .cmp2 #v[7, 1, 2, 3, 9, 0, 0, 0]
        #v[7, 1, 2, 3, 8, 0xFFFFFFFF, 0xFFFFFFFF, 0xFFFFFFFF])) (·.le) = some false ∧
      field (exec .stCmp2 (comparing .cmp2 #v[7, 1, 2, 3, 8, 0, 0, 0] #v[7, 1, 2, 3, 9, 0, 0, 0])) (·.le) =
        some true := by decide

/-- V45 and V48: equality passes, the least significant word counts. -/
theorem test_cmp2_equal_and_last_word :
    field (exec .stCmp2 (comparing .cmp2 (Vector.replicate 8 0) (Vector.replicate 8 0))) (·.le) = some true ∧
      field (exec .stCmp2 (comparing .cmp2 #v[0, 0, 0, 0, 0, 0, 0, 1] (Vector.replicate 8 0))) (·.le) =
        some false := by decide

/-- Section 6 of 95_test_vectors.md, TLATCH: CTRL = 0 copies TARGET; CTRL = 1 replaces word 0 only. -/
theorem test_tlatch_override :
    let t : Vector Word 8 := #v[0x11111111, 0x22222222, 3, 4, 5, 6, 7, 0x88888888]
    field (exec .stTlatch { running .compare .tlatch with target := t }) (·.et) = some t ∧
      field (exec .stTlatch { running .compare .tlatch with target := t, bench := true })
        (fun u => (u.et[0], u.et[1], u.et[7], u.target)) =
        some (Config.benchMsw, 0x22222222, 0x88888888, t) := ⟨by decide, rfl⟩

/-! ## Commands and the bus -/

/-- V51: a reserved word sets ERR (STATUS 0x10), CLRF clears it, 0x13 does not start a HASH. -/
theorem test_command_words :
    field (hostStep (.write 0 4 0x00000007) State.reset) statusWord = some 0x00000010 ∧
      field (hostStep (.write 0 4 0x00000006) { State.reset with err := true, fallback := true }) statusWord =
        some 0x00000000 ∧
      field (hostStep (.write 0 4 0x00000013) State.reset) statusWord = some 0x00000010 := by decide

/-- R166: SRESET while BUSY is refused; R48: a data write while BUSY is dropped with ERR. -/
theorem test_busy_refuses :
    field (hostStep (.write 0 4 0x0000000F) (running .deriveSeed .pinit)) statusWord = some 0x00010411 ∧
      field (hostStep (.write 0x080 4 0xFFFFFFFF) (running .deriveSeed .pinit)) (fun t => (t.hdr[0], t.err)) =
        some (0, true) := by decide

/-- V52: of CTRL only bit 0 is kept; SEED[0] is big-endian in SB. -/
theorem test_register_writes :
    field (hostStep (.write 0x008 4 0xFFFFFFFF) State.reset) (readReg · .ctrl) = some 1 ∧
      field (hostStep (.write 0x060 4 0x01020304) State.reset)
        (fun t => (readReg t (.seed 0), t.sb[0], t.sb[3])) = some (0x01020304, 0x01, 0x04) := by decide

/-- V50 and V7: PERM_LO and PERM_HI after reset, and at a reserved offset 0. -/
theorem test_reset_reads :
    field (hostStep (.read 0x024 4) State.reset) (·.resp) = some (.data 0x76543210) ∧
      field (hostStep (.read 0x028 4) State.reset) (·.resp) = some (.data 0x00000A98) ∧
      field (hostStep (.read 0x034 4) State.reset) (·.resp) = some (.data 0) := by decide

/-- V52: an access at 0x002 is a bus error, and the block goes on. -/
theorem test_bus_error :
    busAccess (.read 0x002 4) State.reset = .fault (.busError 2) ∧
      field (hostStep (.write 0x400 4 1) State.reset) (fun t => (t.resp, t.busy)) = some (.error 0x400, false) :=
  ⟨rfl, by decide⟩

/-- R210: reset abandons a running command; R33: BUSY 0 and STATUS 0. -/
theorem test_reset_abandons :
    field (step { running .search .round with sched := [.reset true] }) (fun t => (statusWord t, t.rst)) =
      some (0, true) := by decide

/-- R69, R70: a script's accesses, from P1's table: W 060 01000000, W 000 00000001, R 024. -/
theorem test_script_expansion :
    expandScript [.wr (.seed 0) 0x01000000, .cmd .deriveSeed, .rd .permLo] =
      [.host (.write 0x060 4 0x01000000), .host (.write 0x000 4 1), .host (.read 0x024 4)] := by decide

/-! ## Witnesses: a state and operands that meet the hypotheses of each statement -/

theorem test_witness_DecodeEncodeAgree :
    (Instr.reservedHighbits 0xFFFFFFF 15).wf = true ∧ decode (.sel 15) = .ok .invalidF := by decide

theorem test_witness_RegisterMapOneToOne :
    accessLegal 0x27C 4 = true ∧ regAt 0x27C = some (.bufbw 15) ∧
      (accessLegal 0x034 4 = true ∧ 0x034 ≤ 0x034 ∧ 0x034 ≤ 0x03C) ∧ accessLegal 0x3FC 4 = true ∧ 0x280 ≤ 0x3FC := by decide

theorem test_witness_CommandAcceptance :
    State.reset.busy = false := rfl

theorem test_witness_NopChangesNothing :
    State.reset.busy = false := rfl

theorem test_witness_ClrfClearsStickyFlags :
    State.reset.busy = false := rfl

theorem test_witness_ClrfClearsStickyFlags_step :
    let s := { State.reset with err := true, fallback := true, sched := [.host (.write 0 4 6)] }
    s.rst = false ∧ s.err = true ∧ s.fallback = true ∧ step s = .next { State.reset with resp := .ack } := ⟨rfl, rfl, rfl, rfl⟩

theorem test_witness_ResetValuesAsRead :
    State.reset.busy = false ∧ Reg.hdr 0 ≠ .permLo ∧ Reg.hdr 0 ≠ .permHi := by decide

theorem test_witness_SresetResetsEverything :
    State.reset.busy = false := rfl

theorem test_witness_ReservedWordsOnlySetErr :
    State.reset.busy = false ∧ Instr.reserved7 ∈ [Instr.reserved7, .reserved8, .reserved9, .reservedA, .reservedB, .reservedC, .reservedD, .reservedE] := by decide

theorem test_witness_RunCommandsStart :
    State.reset.busy = false := rfl

theorem test_witness_BusyRefusesEveryCommand :
    (running .hash .conv).busy = true := rfl

theorem test_witness_ConvSerialisesHeader :
    (running .search .conv).op = .search ∧ (running .hash .conv).op ≠ .search := by decide

theorem test_witness_SeedgenHashesPreviousHash :
    ∀ j : Fin 32, (Vector.replicate 32 0 : Vector Byte 32)[j] = (running .hash .seedgen).msg[4 + j.val] := by decide

theorem test_witness_PinitFoldsSeed :
    ∀ j : Fin 4, ((fun _ => 0 : Fin 4 → DWord) j).toNat =
      State.reset.sb[8 * j.val].toNat + State.reset.sb[8 * j.val + 1].toNat * 2 ^ 8 +
        State.reset.sb[8 * j.val + 2].toNat * 2 ^ 16 + State.reset.sb[8 * j.val + 3].toNat * 2 ^ 24 +
        State.reset.sb[8 * j.val + 4].toNat * 2 ^ 32 + State.reset.sb[8 * j.val + 5].toNat * 2 ^ 40 +
        State.reset.sb[8 * j.val + 6].toNat * 2 ^ 48 + State.reset.sb[8 * j.val + 7].toNat * 2 ^ 56 := by decide

theorem test_witness_ShufOneIteration_middle :
    let s := { running .hash .shuf with prng := 0xC1294015BEF65A92, i := 10 }
    s.i ≠ 0 ∧ (6 : Fin 11).val = (xorshift64 s.prng).toNat % (s.i.val + 1) ∧ s.i ≠ 1 ∧
      s.op ∈ [RunOp.deriveSeed, .deriveHdr, .hash, .search] := by decide

theorem test_witness_ShufOneIteration_last :
    ∀ op ∈ [RunOp.deriveSeed, .deriveHdr, .hash, .search],
    let s := { running op .shuf with i := 1 }
    s.i ≠ 0 ∧ (0 : Fin 11).val = (xorshift64 s.prng).toNat % (s.i.val + 1) ∧ s.i = 1 := by decide

theorem test_witness_ZeroSeedGivesRotation :
    seedState (Vector.replicate 32 0xFF) = 0 := by decide

theorem test_witness_DeriveSeedComputesPermutation :
    State.reset.busy = false ∧ Undisturbed State.reset := ⟨rfl, rfl, rfl⟩

theorem test_witness_DeriveHdrComputesPermutation :
    State.reset.busy = false ∧ Undisturbed State.reset := ⟨rfl, rfl, rfl⟩

theorem test_witness_RoundZeroHashesMessage :
    (running .hash .round).r = 0 := by decide

theorem test_witness_LaterRoundsSwapBuffers :
    let s := { running .hash .round with r := 10, cur := true }
    let u := { running .hash .round with r := 1 }
    s.r ≠ 0 ∧ s.cur = true ∧ s.r.val = 10 ∧ u.r ≠ 0 ∧ u.cur = false ∧ u.r.val ≠ 10 := by decide

theorem test_witness_SlotCodeSelectsUnit :
    encode .echo512 = .sel 10 ∧ (10 : Sel).toNat ≤ 10 ∧ encode .invalidB = .sel 11 ∧ 10 < (11 : Sel).toNat := by decide

theorem test_witness_DlatchTakesCurrentBuffer :
    (running .hash .dlatch).op = .hash ∧ (running .search .dlatch).op = .search := by decide

theorem test_witness_HashComputesDigest :
    State.reset.busy = false ∧ Undisturbed State.reset := ⟨rfl, rfl, rfl⟩

theorem test_witness_LoopchkTestsRangeAndCancel :
    let s := { running .search .loopchk with nonce := 0xFFFFFFFE, nonceMax := 0xFFFFFFFF }
    let u := { running .search .loopchk with nonce := 0xFFFFFFFF, nonceMax := 0xFFFFFFFF }
    (s.nonce.toNat < s.nonceMax.toNat ∧ s.cancel = false) ∧ u.nonceMax.toNat ≤ u.nonce.toNat := by decide

theorem test_witness_SearchWithoutIteration :
    (State.reset.busy = false ∧ Undisturbed State.reset) ∧ State.reset.nonceMax.toNat ≤ State.reset.nonceStart.toNat := ⟨⟨rfl, rfl, rfl⟩, by decide⟩

/-- The other hypothesis: a range of five nonces and `cancel` at 1. -/
theorem test_witness_SearchWithoutIteration_cancel :
    let s := { State.reset with nonceStart := 100, nonceMax := 105, cancel := true }
    (s.busy = false ∧ Undisturbed s) ∧ s.cancel = true ∧ ¬ s.nonceMax.toNat ≤ s.nonceStart.toNat := ⟨⟨rfl, rfl, rfl⟩, rfl, by decide⟩

theorem test_witness_CancelSeenOnlyByLoopchk :
    Instr.nop ≠ .stLoopchk ∧ exec .nop State.reset = .next State.reset := ⟨by decide, rfl⟩

theorem test_witness_TlatchLatchesEffectiveTarget :
    (running .search .tlatch).op = .search ∧ (running .compare .tlatch).op = .compare := by decide

theorem test_witness_Cmp1PreCheck :
    let s := comparing .cmp1 #v[0xD4057461, 0, 0, 0, 0, 0, 0, 0] #v[0xD4057460, 0, 0, 0, 0, 0, 0, 0]
    s.digest[0].toNat * 2 ^ 24 + s.digest[1].toNat * 2 ^ 16 + s.digest[2].toNat * 2 ^ 8 + s.digest[3].toNat =
        s.et[0].toNat + 1 ∧ s.op = .compare ∧ { s with op := RunOp.search }.op = .search ∧
      (0 : Nat) ≤ State.reset.et[0].toNat := by decide

theorem test_witness_Cmp2FullCompare :
    (running .search .cmp2).op = .search ∧ (running .compare .cmp2).op = .compare := by decide

theorem test_witness_CompareComputesVerdict :
    (State.reset.busy = false ∧ Undisturbed State.reset) ∧
      preCheck State.reset.digest (effectiveTarget State.reset.bench State.reset.target) = true := ⟨⟨rfl, rfl, rfl⟩, by decide⟩

/-- The other count: a digest whose high word is above the target's. -/
theorem test_witness_CompareComputesVerdict_precheck :
    let s := { State.reset with digest := Vector.replicate 32 1 }
    (s.busy = false ∧ Undisturbed s) ∧ preCheck s.digest (effectiveTarget s.bench s.target) = false := ⟨⟨rfl, rfl, rfl⟩, by decide⟩

theorem test_witness_IllegalAccessChangesNothing :
    (2 : Nat) ≠ 4 ∨ (0x3FE : Nat) % 4 ≠ 0 ∨ 0x400 ≤ (0x400 : Nat) := by decide

theorem test_witness_ReadsHaveNoSideEffect :
    (0x27C : Nat) % 4 = 0 ∧ (0x27C : Nat) < 0x400 ∧ regOffset (.bufbw 15) = 0x27C := by decide

theorem test_witness_ReadsHaveNoSideEffect_reserved :
    ∀ reg : Reg, regOffset reg ≠ 0x3FC := by
  intro reg
  cases reg <;> simp only [regOffset] <;> omega

theorem test_witness_WriteReachesOneRegister :
    State.reset.busy = false ∧ regWritable (.seed 7) = true ∧ regWritable .ctrl = true := by decide

theorem test_witness_RefusedAndIgnoredWrites :
    (running .hash .conv).busy = true ∧ regWritable (.hdr 19) = true ∧ regWritable .status = false ∧ Reg.status ≠ .cmd := by decide

theorem test_witness_WordViewsAreBigEndian :
    State.reset.msg.toList = State.reset.msg.toList ∧ 4 * (19 : Fin 20).val + 3 < 80 := by decide

theorem test_witness_StatusFields :
    (running .search .exitnf).st = .exitnf ∧ (running .compare .cmp2).op = .compare ∧ State.reset.st = .idle ∧
      State.reset.op = .none := by decide

theorem test_witness_StepRunsDecodedInstruction_sequencer :
    fetch (running .search .ninc) = some (.st 13) ∧ decode (.st 13) = .ok .stNinc := by decide

theorem test_witness_StepRunsDecodedInstruction_command :
    fetch (State.reset.withFetchWord 32 3) = some (.cmd 3) ∧ decode (.cmd 3) = .ok .hash := by decide

theorem test_witness_IdleBlockHasNoStep :
    State.reset.busy = false ∧ State.reset.rst = false ∧ nextAction State.reset = .tick := by decide

theorem test_witness_SequencerKeepsHostRegisters :
    (running .search .ninc).rst = false ∧ nextAction (running .search .ninc) = .tick ∧
    step (running .search .ninc) = .next { running .search .loopchk with nonce := 1 } := ⟨rfl, rfl, rfl⟩

theorem test_witness_CausesOfErr_command :
    let s := State.reset.withFetchWord 32 7
    s.rst = false ∧ s.err = false ∧ nextAction s = .host (.write 0 4 7) ∧
      step s = .next { State.reset with err := true, resp := .ack } := ⟨rfl, rfl, rfl, rfl⟩

theorem test_witness_CausesOfErr_register :
    let s := { running .hash .conv with sched := [.host (.write 0x0CC 4 1)] }
    s.rst = false ∧ s.busy = true ∧ regOffset (.hdr 19) = 0x0CC ∧ regWritable (.hdr 19) = true ∧
      step s = .next { running .hash .conv with err := true, resp := .ack } := ⟨rfl, rfl, rfl, rfl, rfl⟩

theorem test_witness_CausesOfErr_clear :
    let s := { State.reset with err := true, sched := [.host (.write 0 4 6)] }
    s.rst = false ∧ s.err = true ∧ step s = .next { State.reset with resp := .ack } := ⟨rfl, rfl, rfl⟩

theorem test_witness_ResetWinsOverEverything :
    let s := { running .hash .round with sched := [.reset true] }
    let u := { State.reset with rst := true, sched := [.host (.read (regOffset .permLo) 4)] }
    nextAction s = .reset true ∧ u.rst = true ∧ nextAction u = .host (.read (regOffset .permLo) 4) ∧
      step u = .next { State.reset with rst := true, resp := .data 0x76543210 } := ⟨rfl, rfl, rfl, rfl⟩

theorem test_witness_PermutationStaysValid :
    PermInv State.reset ∧ step State.reset = .next State.reset := ⟨by decide, rfl⟩

theorem test_witness_ControlStaysCoherent :
    let s := { running .search .shuf with i := 1 }
    ControlInv s ∧ ChainInv s ∧ ∃ t, step s = .next t := ⟨by decide, by decide, _, rfl⟩

theorem test_witness_StepKeepsInvariants :
    let s := { running .search .nwrite with nonce := 4, nonceStart := 3, nonceMax := 5 }
    Inv s ∧ ∃ t, step s = .next t := ⟨⟨by decide, by decide, by decide, by decide, by decide, by decide⟩, _, rfl⟩

theorem test_witness_EveryCommandCompletes :
    let s := { running .search .nwrite with nonce := 4, nonceStart := 3, nonceMax := 5 }
    (Inv s ∧ Undisturbed s) ∧ s.busy = true :=
  ⟨⟨⟨by decide, by decide, by decide, by decide, by decide, by decide⟩, rfl, rfl⟩, rfl⟩

/-- With the all-ones target every digest passes, so the first nonce of a range of one does. -/
theorem test_witness_SearchFindsSmallestPassingNonce :
    let s := { State.reset with nonceMax := 1, target := Vector.replicate 8 0xFFFFFFFF }
    s.busy = false ∧ Undisturbed s ∧ s.cancel = false ∧ s.nonceStart.toNat ≤ (0 : Word).toNat ∧
      (0 : Word).toNat < s.nonceMax.toNat ∧ noncePasses s 0 = true ∧
      ∀ m : Word, s.nonceStart.toNat ≤ m.toNat → m.toNat < (0 : Word).toNat → noncePasses s m = false := by
  refine ⟨rfl, ⟨rfl, rfl⟩, rfl, by decide, by decide, ?_, fun m _ h => absurd h (Nat.not_lt_zero _)⟩
  exact accepted_of_greatest (nonceDigest State.reset.hdr 0) (Vector.replicate 8 0xFFFFFFFF) (by decide)

/-- The empty range of V24 (NONCE_START = NONCE_MAX = 7) has no passing nonce. (Of a nonce in a range nothing can be
evaluated: the units have no body.) -/
theorem test_witness_SearchExhaustsRange :
    let s := { State.reset with nonceStart := 7, nonceMax := 7 }
    s.busy = false ∧ Undisturbed s ∧ s.cancel = false ∧ s.nonceStart.toNat ≤ s.nonceMax.toNat ∧
      ∀ m : Word, s.nonceStart.toNat ≤ m.toNat → m.toNat < s.nonceMax.toNat → noncePasses s m = false :=
  ⟨rfl, ⟨rfl, rfl⟩, rfl, Nat.le_refl _, fun _ h1 h2 => absurd h2 (Nat.not_lt.mpr h1)⟩

end Sys2Proof.Tests
end

/-! PROOF. Who reads the level of `cancel` (00_scope.md R5, 10_state.md R27). The level is data that an operation carries
along: an operation that does not look at it commutes with driving the pin. This is shown of the shared operations once,
then of each step, and every instruction but LOOPCHK is built from these. -/

namespace Sys2Proof.Machine

/-- The state with the pin `cancel` driven to `level` and nothing else changed. -/
def driveCancel (level : Bool) (s : State) : State := { s with cancel := level }

/-- Driving the pin is what the cancel source's action does. -/
theorem actRunning_cancel (level : Bool) (s : State) : actRunning (.cancel level) s = .next (driveCancel level s) := rfl

/-- An update of the state that neither reads nor writes the level of `cancel`. -/
def CommutesWithCancel (f : State → State) : Prop :=
  ∀ (level : Bool) (s : State), f (driveCancel level s) = driveCancel level (f s)

/-- A meaning whose next state is the same at the other level of `cancel`, but for the level itself. -/
def IgnoresCancel (m : State → Outcome) : Prop :=
  ∀ (level : Bool) (s t : State), m s = .next t → m (driveCancel level s) = .next (driveCancel level t)

/-- One update after another. -/
theorem CommutesWithCancel.comp {f g : State → State} (hf : CommutesWithCancel f) (hg : CommutesWithCancel g) :
    CommutesWithCancel fun s => f (g s) := fun level s =>
  (congrArg f (hg level s)).trans (hf level (g s))

/-! ### The shared operations -/

theorem start_commutesWithCancel (op : RunOp) (st : SeqState) : CommutesWithCancel (start op st) := fun _ _ => rfl

theorem complete_commutesWithCancel : CommutesWithCancel complete := fun _ _ => rfl

theorem setErr_commutesWithCancel : CommutesWithCancel setErr := fun _ _ => rfl

theorem resetBlock_commutesWithCancel : CommutesWithCancel resetBlock := fun _ _ => rfl

/-- A round branches on R and CUR only. -/
theorem runRound_commutesWithCancel (f : List Byte → Vector Byte 64) : CommutesWithCancel (runRound f) := by
  intro level s
  by_cases h0 : s.r = 0
  · rw [runRound_zero f s h0, runRound_zero f (driveCancel level s) h0]
    rfl
  · cases hc : s.cur <;> by_cases h10 : s.r.val = 10 <;> simp [runRound, driveCancel, h0, hc, h10]

theorem roundBySel_commutesWithCancel (sel : Sel) : CommutesWithCancel (roundBySel sel) :=
  (runRound_commutesWithCancel _).comp fun _ _ => rfl

/-- The end of a comparison branches on OP only. -/
theorem compareDone_commutesWithCancel (next : SeqState) : CommutesWithCancel (compareDone next) := by
  intro level s
  cases hop : s.op <;> simp [compareDone, complete, driveCancel, hop]

/-- The end of the shuffle branches on OP only. -/
theorem shufDone_commutesWithCancel : CommutesWithCancel shufDone := by
  intro level s
  cases hop : s.op <;> simp [shufDone, complete, driveCancel, hop]

/-! ### From updates to meanings -/

/-- A meaning that is one update. -/
theorem CommutesWithCancel.ignoresCancel {f : State → State} (hf : CommutesWithCancel f) :
    IgnoresCancel fun s => .next (f s) := by
  intro level s t h
  obtain rfl : f s = t := by simpa using h
  exact congrArg Host.Outcome.next (hf level s)

/-- A CMD write looks at BUSY, and not at `cancel`, to accept or to refuse. -/
theorem acceptCmd_ignoresCancel {effect : State → State} (hf : CommutesWithCancel effect) :
    IgnoresCancel (acceptCmd effect) := by
  intro level s t h
  obtain ⟨hb, rfl⟩ | ⟨hb, rfl⟩ := acceptCmd_cases h
  · rw [acceptCmd_busy effect (driveCancel level s) hb, setErr_commutesWithCancel]
  · rw [acceptCmd_idle effect (driveCancel level s) hb, hf]

/-- A meaning that chooses between two others by a condition the level of `cancel` does not enter. -/
theorem IgnoresCancel.ite {c : State → Prop} [DecidablePred c] {m n : State → Outcome}
    (hc : ∀ (level : Bool) (s : State), c (driveCancel level s) ↔ c s) (hm : IgnoresCancel m) (hn : IgnoresCancel n) :
    IgnoresCancel fun s => if c s then m s else n s := by
  intro level s t h
  by_cases hcs : c s
  · simp only [if_pos hcs] at h
    simpa only [if_pos ((hc level s).mpr hcs)] using hm level s t h
  · simp only [if_neg hcs] at h
    simpa only [if_neg (mt (hc level s).mp hcs)] using hn level s t h

/-! ### The steps that branch -/

/-- TLATCH branches on OP only. -/
theorem execStTlatch_ignoresCancel : IgnoresCancel execStTlatch := by
  intro level s t h
  cases hop : s.op
  all_goals
    simp only [execStTlatch, hop, Host.Outcome.next.injEq] at h
    subst h
    simp [execStTlatch, driveCancel, hop]

/-- DLATCH branches on OP only. -/
theorem execStDlatch_ignoresCancel : IgnoresCancel execStDlatch := by
  intro level s t h
  cases hop : s.op
  all_goals
    simp only [execStDlatch, hop, Host.Outcome.next.injEq] at h
    subst h
    simp [execStDlatch, complete, driveCancel, hop]

/-- SHUF branches on I, and at its last iteration on OP. -/
theorem execStShuf_ignoresCancel : IgnoresCancel execStShuf :=
  .ite (fun _ _ => Iff.rfl) (CommutesWithCancel.ignoresCancel fun _ _ => rfl) <|
    .ite (fun _ _ => Iff.rfl) (shufDone_commutesWithCancel.comp fun _ _ => rfl).ignoresCancel
      (CommutesWithCancel.ignoresCancel fun _ _ => rfl)

/-- CMP1 branches on DIGEST and ET, and after a failed pre-check on OP. -/
theorem execStCmp1_ignoresCancel : IgnoresCancel execStCmp1 :=
  .ite (fun _ _ => Iff.rfl) (CommutesWithCancel.ignoresCancel fun _ _ => rfl)
    ((compareDone_commutesWithCancel .ninc).comp fun _ _ => rfl).ignoresCancel

/-- CMP2 stores the verdict on DIGEST and ET and branches on it and on OP. -/
theorem execStCmp2_ignoresCancel : IgnoresCancel execStCmp2 :=
  CommutesWithCancel.ignoresCancel fun level s =>
    compareDone_commutesWithCancel _ level { s with le := fullCompare s.digest s.et }

/-! ### Every instruction but LOOPCHK -/

/-- Grouped by what the meaning is made of: a CMD write, a round, one update, or a step that branches. -/
theorem exec_ignoresCancel : ∀ i : Instr, i ≠ .stLoopchk → IgnoresCancel (exec i)
  | .stLoopchk, h => absurd rfl h
  | .nop, _ | .clrf, _ | .search, _ => acceptCmd_ignoresCancel fun _ _ => rfl
  | .deriveSeed, _ | .deriveHdr, _ | .hash, _ | .compare, _ =>
    acceptCmd_ignoresCancel (start_commutesWithCancel _ _)
  | .sreset, _ => acceptCmd_ignoresCancel resetBlock_commutesWithCancel
  | .reserved7, _ | .reserved8, _ | .reserved9, _ | .reservedA, _ | .reservedB, _ | .reservedC, _ | .reservedD, _
  | .reservedE, _ | .reservedHighbits _ _, _ => acceptCmd_ignoresCancel setErr_commutesWithCancel
  | .blake512, _ | .bmw512, _ | .groestl512, _ | .skein512, _ | .jh512, _ | .keccak512, _ | .luffa512, _
  | .cubehash512, _ | .shavite512, _ | .simd512, _ | .echo512, _ | .invalidB, _ | .invalidC, _ | .invalidD, _
  | .invalidE, _ | .invalidF, _ => (roundBySel_commutesWithCancel _).ignoresCancel
  | .stIdle, _ | .stConv, _ | .stSeedgen, _ | .stPinit, _ | .stNwrite, _ | .stNinc, _ =>
    CommutesWithCancel.ignoresCancel fun _ _ => rfl
  | .stFoundx, _ | .stExitnf, _ => (complete_commutesWithCancel.comp fun _ _ => rfl).ignoresCancel
  | .stRound, _ => CommutesWithCancel.ignoresCancel fun level s => roundBySel_commutesWithCancel s.perm[s.r] level s
  | .stTlatch, _ => execStTlatch_ignoresCancel
  | .stShuf, _ => execStShuf_ignoresCancel
  | .stDlatch, _ => execStDlatch_ignoresCancel
  | .stCmp1, _ => execStCmp1_ignoresCancel
  | .stCmp2, _ => execStCmp2_ignoresCancel

/-- Settles O34: each instruction but LOOPCHK is made of operations that commute with driving the pin. -/
theorem cancelSeenOnlyByLoopchk : Obligations.CancelSeenOnlyByLoopchk :=
  fun i s t level hi h => exec_ignoresCancel i hi level s t h

end Sys2Proof.Machine

/-! PROOF. What a step can do, said once: the outcomes of a CMD write, of the sequencer's turn and of a step of the machine,
each with its guard. An invariant of the machine is proved of these outcomes, and no later proof unfolds the dispatch. -/

namespace Sys2Proof.Machine

/-! ### A CMD write -/

/-- The four run commands that are `Start(op, S)` and nothing else, with the state each starts in (40_permutation.md R80,
R81, 41_hashchain.md R100, 43_comparator.md R155). -/
def plainStarts : List (RunOp × SeqState) :=
  [(.deriveSeed, .pinit), (.deriveHdr, .conv), (.hash, .conv), (.compare, .tlatch)]

/-- The next states of a CMD write, by what the word asks for (44_control.md R165 to R170). -/
inductive CommandOutcome (s : State) : State → Prop
  | refused (busy : s.busy = true) : CommandOutcome s (setErr s)
  | nop (idle : s.busy = false) : CommandOutcome s s
  | clrf (idle : s.busy = false) : CommandOutcome s { s with err := false, fallback := false }
  | sreset (idle : s.busy = false) : CommandOutcome s (resetBlock s)
  | reserved (idle : s.busy = false) : CommandOutcome s (setErr s)
  | run (idle : s.busy = false) (op : RunOp) (st : SeqState) (row : (op, st) ∈ plainStarts) :
      CommandOutcome s (start op st s)
  | search (idle : s.busy = false) :
      CommandOutcome s
        { start .search .tlatch s with nonce := s.nonceStart, winNonce := 0, hashesDone := 0 }

/-- A CMD write whose accepted effect is an outcome goes on with an outcome: the refusal is the other one. -/
theorem acceptCmd_outcome {effect : State → State} {s : State}
    (accepted : s.busy = false → CommandOutcome s (effect s)) :
    ∃ t, acceptCmd effect s = .next t ∧ CommandOutcome s t := by
  cases hb : s.busy
  · exact ⟨_, acceptCmd_idle effect s hb, accepted hb⟩
  · exact ⟨_, acceptCmd_busy effect s hb, .refused hb⟩

/-- The rows of the CMD opcode map, as outcomes (30_encoding.md R61). -/
theorem exec_decodeOpc_outcome (opc : BitVec 4) (s : State) :
    ∃ t, exec (decodeOpc opc) s = .next t ∧ CommandOutcome s t := by
  unfold decodeOpc
  split
  case h_1 => exact acceptCmd_outcome (effect := fun s => s) .nop
  case h_2 => exact acceptCmd_outcome fun hb => .run hb _ _ (by decide)
  case h_3 => exact acceptCmd_outcome fun hb => .run hb _ _ (by decide)
  case h_4 => exact acceptCmd_outcome fun hb => .run hb _ _ (by decide)
  case h_5 => exact acceptCmd_outcome (effect := fun s =>
    { start .search .tlatch s with nonce := s.nonceStart, winNonce := 0, hashesDone := 0 }) .search
  case h_6 => exact acceptCmd_outcome fun hb => .run hb _ _ (by decide)
  case h_7 => exact acceptCmd_outcome (effect := fun s => { s with err := false, fallback := false }) .clrf
  case h_16 => exact acceptCmd_outcome .sreset
  all_goals exact acceptCmd_outcome .reserved

/-- Every CMD word goes on with one of the outcomes; a word with a bit of 31:4 set is reserved (30_encoding.md R62). -/
theorem exec_decodeCmd_outcome (w : Word) (s : State) :
    ∃ t, exec (decodeCmd w) s = .next t ∧ CommandOutcome s t := by
  unfold decodeCmd
  split
  · exact exec_decodeOpc_outcome _ s
  · exact acceptCmd_outcome .reserved

/-! ### The sequencer's turn -/

/-- The instruction of a sequencer state (30_encoding.md R65). -/
def stateInstr : SeqState → Instr
  | .idle => .stIdle
  | .tlatch => .stTlatch
  | .conv => .stConv
  | .seedgen => .stSeedgen
  | .pinit => .stPinit
  | .shuf => .stShuf
  | .loopchk => .stLoopchk
  | .nwrite => .stNwrite
  | .round => .stRound
  | .dlatch => .stDlatch
  | .cmp1 => .stCmp1
  | .cmp2 => .stCmp2
  | .foundx => .stFoundx
  | .ninc => .stNinc
  | .exitnf => .stExitnf

/-- The decoder reads it from the state's code. -/
theorem decode_seqCode (q : SeqState) : decode (.st (seqCode q)) = .ok (stateInstr q) := by
  cases q <;> rfl

/-- While BUSY the sequencer runs the instruction of ST. -/
theorem seqStep_busy {s : State} (hb : s.busy = true) : seqStep s = exec (stateInstr s.st) s := by
  rw [seqStep, seqWord, if_pos hb, runEncoded_ok (decode_seqCode s.st)]

/-- While BUSY = 0 it has no step (44_control.md R172). -/
theorem seqStep_idle {s : State} (hb : s.busy = false) : seqStep s = .next s := by
  rw [seqStep, seqWord, if_neg (by simp [hb]), runEncoded_ok (decode_seqCode .idle)]
  rfl

/-! ### A step of the machine -/

/-- The next states of a step, by the agent that acts. -/
inductive StepOutcome (s : State) : State → Prop
  /-- only the pin `cancel` and the bus answer move: a read, an error answer, a write that no register takes, `cancel`
  driven, or `rst` driven to the level it has -/
  | quiet (released : s.rst = false) (cancel : Bool) (resp : BusResp) :
      StepOutcome s { s with sched := s.sched.tail, cancel := cancel, resp := resp }
  /-- the block takes, or is held at, its reset values (70_reset_and_hazards.md R210) -/
  | held (asserted : s.rst = true ∨ nextAction s = .reset true) (cancel rst : Bool) (resp : BusResp) :
      StepOutcome s { resetBlock s with sched := s.sched.tail, cancel := cancel, rst := rst, resp := resp }
  /-- the sequencer's turn -/
  | turn (released : s.rst = false) (tick : nextAction s = .tick) (t : State)
      (run : seqStep { s with sched := s.sched.tail } = .next t) : StepOutcome s t
  /-- a CMD write -/
  | command (released : s.rst = false) (u : State)
      (run : CommandOutcome { s with sched := s.sched.tail } u) : StepOutcome s { u with resp := .ack }
  /-- a write to an RW register while BUSY (60_exceptions.md R191) -/
  | refusedWrite (released : s.rst = false) (busy : s.busy = true) :
      StepOutcome s { setErr { s with sched := s.sched.tail } with resp := .ack }
  /-- a write that an RW register takes -/
  | takenWrite (released : s.rst = false) (idle : s.busy = false) (reg : Reg) (rw : regWritable reg = true) (v : Word) :
      StepOutcome s { setReg reg v { s with sched := s.sched.tail } with resp := .ack }

/-- A legal write answers the acknowledge after the effect at its offset. -/
theorem hostStep_write (s : State) (addr width : Nat) (v : Word) (hl : accessLegal addr width = true) {u : State}
    (hw : writeOffset addr v s = .next u) : hostStep (.write addr width v) s = .next { u with resp := .ack } := by
  simp [hostStep, busAccess, hl, hw]

/-- The host's transaction while `rst` is released. -/
theorem hostStep_outcome {s t : State} {a : BusAccess} (hr : s.rst = false)
    (h : hostStep a { s with sched := s.sched.tail } = .next t) : StepOutcome s t := by
  cases a with
  | read addr width =>
    cases hl : accessLegal addr width
    · rw [hostStep_illegal_read _ _ _ hl, Host.Outcome.next.injEq] at h
      exact h ▸ .quiet hr s.cancel _
    · rw [hostStep_read _ _ _ hl, Host.Outcome.next.injEq] at h
      exact h ▸ .quiet hr s.cancel _
  | write addr width v =>
    cases hl : accessLegal addr width
    · rw [hostStep_illegal_write _ _ _ _ hl, Host.Outcome.next.injEq] at h
      exact h ▸ .quiet hr s.cancel _
    · have written {u : State} (hw : writeOffset addr v { s with sched := s.sched.tail } = .next u) :
          { u with resp := .ack } = t := by
        rwa [hostStep_write _ _ _ _ hl hw, Host.Outcome.next.injEq] at h
      obtain ⟨-, hw⟩ | ⟨reg, -, -, hb, hw⟩ | ⟨reg, -, hrw, hb, hw⟩ | ⟨-, hw⟩ :=
        writeOffset_cases addr v { s with sched := s.sched.tail }
      · obtain ⟨u, hu, run⟩ := exec_decodeCmd_outcome v { s with sched := s.sched.tail }
        exact written (hw.trans hu) ▸ .command hr u run
      · exact written hw ▸ .refusedWrite hr hb
      · exact written hw ▸ .takenWrite hr hb reg hrw v
      · exact written hw ▸ .quiet hr s.cancel _

/-- A transaction while `rst` is asserted moves the bus answer only. -/
theorem hostStepInReset_resp {s t : State} {a : BusAccess} (h : hostStepInReset a s = .next t) :
    ∃ resp, t = { s with resp := resp } := by
  cases a with
  | read addr width =>
    cases hl : accessLegal addr width
    · exact ⟨_, (Host.Outcome.next.inj (h.symm.trans (hostStep_illegal_read s addr width hl)))⟩
    · exact ⟨_, (Host.Outcome.next.inj (h.symm.trans (hostStep_read s addr width hl)))⟩
  | write addr width v => exact ⟨_, (Host.Outcome.next.inj h).symm⟩

/-- Every step has one of the outcomes. -/
theorem step_outcome {s t : State} (h : step s = .next t) : StepOutcome s t := by
  cases hr : s.rst
  · rw [step_running s hr] at h
    cases ha : nextAction s with
    | tick => rw [ha] at h; exact .turn hr ha t h
    | host a => rw [ha] at h; exact hostStep_outcome hr h
    | cancel level => rw [ha] at h; exact Host.Outcome.next.inj h ▸ .quiet hr level s.resp
    | reset level =>
      rw [ha] at h
      cases level
      · exact Host.Outcome.next.inj h ▸ .quiet hr s.cancel s.resp
      · exact Host.Outcome.next.inj h ▸ .held (.inr ha) s.cancel true s.resp
  · rw [step_inReset s hr] at h
    cases ha : nextAction s with
    | tick => rw [ha] at h; exact Host.Outcome.next.inj h ▸ .held (.inl hr) s.cancel s.rst s.resp
    | host a =>
      rw [ha] at h
      obtain ⟨resp, rfl⟩ := hostStepInReset_resp h
      exact .held (.inl hr) s.cancel s.rst resp
    | cancel level => rw [ha] at h; exact Host.Outcome.next.inj h ▸ .held (.inl hr) level s.rst s.resp
    | reset level => rw [ha] at h; exact Host.Outcome.next.inj h ▸ .held (.inl hr) s.cancel level s.resp

end Sys2Proof.Machine

/-! PROOF. The control state stays coherent (10_state.md R28, 30_encoding.md R65, 41_hashchain.md R106). Outside SHUF and
ROUND the counters are at rest; every move of the sequencer is then a move along a straight line, the start or the end of a
command, or one of the two loops, and each kind of move keeps the invariant for one reason. -/

namespace Sys2Proof.Machine

/-- The control state and the counters agree: the two invariants that need each other at every step. -/
abbrev Coherent (s : State) : Prop := ControlInv s ∧ ChainInv s

/-- A command runs and has reported nothing. -/
def Running (s : State) : Prop := s.busy = true ∧ s.done = false ∧ s.found = false

/-- The counters outside the loops of SHUF and ROUND. -/
def AtRest (s : State) : Prop := s.i = 0 ∧ s.cur = false ∧ (s.r = 0 ∨ s.r = 10)

/-- The states of a running command that ask nothing of the counters but to be at rest. -/
def straight (q : SeqState) : Bool := q ∉ [.idle, .shuf, .round, .dlatch]

/-! ### Which command is at which state -/

@[simp] theorem stateOfCommand_idle (op : RunOp) : stateOfCommand op .idle = true := by
  cases op <;> rfl

@[simp] theorem stateOfCommand_search (q : SeqState) : stateOfCommand .search q = true := by
  cases q <;> rfl

/-- The comparator serves SEARCH and COMPARE. -/
theorem stateOfCommand_comparator {op : RunOp} {q : SeqState} (hq : q ∈ [.tlatch, .cmp1, .cmp2])
    (h : stateOfCommand op q = true) : op = .search ∨ op = .compare := by
  simp only [List.mem_cons, List.not_mem_nil, or_false] at hq
  obtain rfl | rfl | rfl := hq <;> cases op <;> simp_all [stateOfCommand]

/-- The chain serves HASH and SEARCH, from round 0 to the digest. -/
theorem stateOfCommand_chain {op : RunOp} {q : SeqState} (hq : q ∈ [.round, .dlatch])
    (h : stateOfCommand op q = true) : op = .hash ∨ op = .search := by
  simp only [List.mem_cons, List.not_mem_nil, or_false] at hq
  obtain rfl | rfl := hq <;> cases op <;> simp_all [stateOfCommand]

/-- The loop of the nonces serves SEARCH. -/
theorem stateOfCommand_loop {op : RunOp} {q : SeqState} (hq : q ∈ [.loopchk, .nwrite, .foundx, .ninc, .exitnf])
    (h : stateOfCommand op q = true) : op = .search := by
  simp only [List.mem_cons, List.not_mem_nil, or_false] at hq
  obtain rfl | rfl | rfl | rfl | rfl := hq <;> cases op <;> simp_all [stateOfCommand]

/-- The permutation generator is one line: who is at a state of it comes to the next one. -/
theorem stateOfCommand_generator (op : RunOp) :
    (stateOfCommand op .conv = true → stateOfCommand op .seedgen = true) ∧
      (stateOfCommand op .seedgen = true → stateOfCommand op .pinit = true) ∧
      (stateOfCommand op .pinit = true → stateOfCommand op .shuf = true) := by
  cases op <;> simp [stateOfCommand]

/-! ### What coherence says of a state -/

section
variable {s : State} (h : Coherent s)
include h

theorem Coherent.running (hb : s.busy = true) : Running s := by
  obtain ⟨⟨-, hflags, -⟩, -⟩ := h
  exact ⟨hb, hflags hb⟩

theorem Coherent.st_idle (hb : s.busy = false) : s.st = .idle := by
  obtain ⟨⟨hst, -, -⟩, -⟩ := h
  simpa [hb] using hst

theorem Coherent.command : stateOfCommand s.op s.st = true := by
  obtain ⟨⟨-, -, hop⟩, -⟩ := h
  exact hop

theorem Coherent.atRest (hs : s.st ≠ .shuf) (hr : s.st ≠ .round) : AtRest s := by
  obtain ⟨-, hi, -, hrest, -⟩ := h
  exact ⟨not_not.mp (mt hi.mpr hs), hrest hr⟩

theorem Coherent.shuf (hst : s.st = .shuf) : s.i ≠ 0 ∧ s.cur = false ∧ (s.r = 0 ∨ s.r = 10) := by
  obtain ⟨-, hi, -, hrest, -⟩ := h
  exact ⟨hi.mp hst, hrest (by simp [hst])⟩

theorem Coherent.round (hst : s.st = .round) : s.i = 0 ∧ s.cur = decide (s.r.val ≠ 0 ∧ s.r.val % 2 = 0) := by
  obtain ⟨-, hi, hcur, -⟩ := h
  exact ⟨not_not.mp (mt hi.mpr (by simp [hst])), hcur hst⟩

end

/-! ### The kinds of move -/

/-- `Complete()`, with the counters at rest. -/
theorem coherent_complete {s : State} (hrest : AtRest s) : Coherent (complete s) := by
  obtain ⟨hi, hcur, hr⟩ := hrest
  simp [Coherent, ControlInv, ChainInv, hi, hcur, hr]

/-- A running command at a state of its own, with the counters at rest. -/
theorem coherent_straight {s : State} (hrun : Running s) (hrest : AtRest s) (hq : straight s.st = true)
    (hop : stateOfCommand s.op s.st = true) : Coherent s := by
  obtain ⟨hb, hd, hf⟩ := hrun
  obtain ⟨hi, hcur, hr⟩ := hrest
  simp only [straight, List.mem_cons, List.not_mem_nil, or_false, not_or, decide_eq_true_eq] at hq
  obtain ⟨hidle, hshuf, hround, hdlatch⟩ := hq
  simp [Coherent, ControlInv, ChainInv, *]

/-- `Start(op, S)` of an idle block. -/
theorem coherent_start {s : State} (h : Coherent s) (hb : s.busy = false) {op : RunOp} {q : SeqState}
    (hq : straight q = true) (hop : stateOfCommand op q = true) : Coherent (start op q s) := by
  have hrest : AtRest s := h.atRest (by simp [h.st_idle hb]) (by simp [h.st_idle hb])
  exact coherent_straight (s := start op q s) ⟨rfl, rfl, rfl⟩ hrest hq hop

/-- Round 0 of the chain. -/
theorem coherent_roundZero {s : State} (hrun : Running s) (hi : s.i = 0) (hcur : s.cur = false) (hr : s.r = 0)
    (hst : s.st = .round) (hop : stateOfCommand s.op .round = true) : Coherent s := by
  obtain ⟨hb, hd, hf⟩ := hrun
  simp [Coherent, ControlInv, ChainInv, hb, hd, hf, hi, hcur, hr, hst, hop]

/-- The shuffle, with an iteration to do. -/
theorem coherent_shuf {s : State} (hrun : Running s) (hi : s.i ≠ 0) (hcur : s.cur = false) (hr : s.r = 0 ∨ s.r = 10)
    (hst : s.st = .shuf) (hop : stateOfCommand s.op .shuf = true) : Coherent s := by
  obtain ⟨hb, hd, hf⟩ := hrun
  simp [Coherent, ControlInv, ChainInv, hb, hd, hf, hi, hcur, hr, hst, hop]

/-- The end of a comparison, in a command that compares. -/
theorem coherent_compareDone {s : State} (hrun : Running s) (hrest : AtRest s)
    (hop : s.op = .search ∨ s.op = .compare) {q : SeqState} (hq : straight q = true) :
    Coherent (compareDone q s) := by
  obtain ⟨hsearch, e⟩ | ⟨-, e⟩ | ⟨hs, hc, -⟩ := compareDone_cases q s
  · rw [e]
    exact coherent_straight (s := { s with st := q }) hrun hrest hq (by simp [hsearch])
  · exact e ▸ coherent_complete hrest
  · exact absurd hop (not_or.mpr ⟨hs, hc⟩)

/-- The end of the shuffle, in a command that shuffles. -/
theorem coherent_shufDone {s : State} (hrun : Running s) (hrest : AtRest s)
    (hop : stateOfCommand s.op .shuf = true) : Coherent (shufDone s) := by
  obtain ⟨-, e⟩ | ⟨hhash, e⟩ | ⟨hsearch, e⟩ | ⟨hnone, -⟩ := shufDone_cases s
  · exact e ▸ coherent_complete hrest
  · obtain ⟨hi, hcur, -⟩ := hrest
    exact e ▸ coherent_roundZero hrun hi hcur rfl rfl (by simp [hhash, stateOfCommand])
  · rw [e]
    exact coherent_straight (s := { s with st := .loopchk }) hrun hrest rfl (by simp [hsearch])
  · obtain e | e := hnone <;> simp [e, stateOfCommand] at hop

/-- A round: CUR flips at each but round 0, so before round R it is 1 exactly for an even R other than 0. -/
theorem coherent_runRound {s : State} (h : Coherent s) (hb : s.busy = true) (hst : s.st = .round)
    (f : List Byte → Vector Byte 64) : Coherent (runRound f s) := by
  obtain ⟨hb, hd, hf⟩ := h.running hb
  obtain ⟨hi, hcur⟩ := h.round hst
  have hround : stateOfCommand s.op .round = true := hst ▸ h.command
  have hdlatch : stateOfCommand s.op .dlatch = true := by
    obtain e | e := stateOfCommand_chain (by simp) hround <;> simp [e, stateOfCommand]
  by_cases h0 : s.r = 0
  · rw [runRound_zero _ _ h0]
    simp [Coherent, ControlInv, ChainInv, hb, hd, hf, hi, hround]
  · have h0' : s.r.val ≠ 0 := fun e => h0 (Fin.ext e)
    obtain ⟨t, ht, hframe, -, -, hlast, hnext⟩ := runRound_later f s h0
    rw [ht, hframe]
    by_cases h10 : s.r.val = 10
    · obtain ⟨hr, hst'⟩ := hlast h10
      have hr10 : s.r = 10 := Fin.ext h10
      simp [Coherent, ControlInv, ChainInv, hb, hd, hf, hi, hdlatch, hcur, hr, hst', hr10]
    · obtain ⟨hr, hst'⟩ := hnext h10
      simp [Coherent, ControlInv, ChainInv, hb, hd, hf, hi, hround, hcur, hr, hst', h0']
      obtain even | odd := Nat.mod_two_eq_zero_or_one s.r.val <;> simp [Nat.add_mod, *]

/-! ### The steps of the sequencer -/

section
variable {s t : State} (h : Coherent s) (hb : s.busy = true)
include h hb

theorem execStTlatch_coherent (hst : s.st = .tlatch) (he : execStTlatch s = .next t) : Coherent t := by
  have hrest : AtRest s := h.atRest (by simp [hst]) (by simp [hst])
  obtain hop | hop := stateOfCommand_comparator (by simp [hst]) h.command
  all_goals
    simp only [execStTlatch, hop, Host.Outcome.next.injEq] at he
    subst he
    exact coherent_straight (h.running hb) hrest rfl (by simp [stateOfCommand])

theorem execStPinit_coherent (hst : s.st = .pinit) (he : execStPinit s = .next t) : Coherent t := by
  obtain ⟨hb, hd, hf⟩ := h.running hb
  obtain ⟨-, hcur, hr⟩ := h.atRest (by simp [hst]) (by simp [hst])
  obtain ⟨-, -, hop⟩ := stateOfCommand_generator s.op
  obtain rfl := Host.Outcome.next.inj he
  exact coherent_shuf ⟨hb, hd, hf⟩ (show (10 : Fin 11) ≠ 0 by decide) hcur hr rfl (hop (hst ▸ h.command))

theorem execStShuf_coherent (hst : s.st = .shuf) (he : execStShuf s = .next t) : Coherent t := by
  obtain ⟨hi, hcur, hr⟩ := h.shuf hst
  have hop : stateOfCommand s.op .shuf = true := hst ▸ h.command
  obtain ⟨hi0, -⟩ | ⟨j, u, hj, hu, ⟨hi1, e⟩ | ⟨hi1, e⟩⟩ := execStShuf_cases s
  · exact absurd hi0 hi
  · have hj0 : j = 0 := by rw [hi1] at hj; exact Fin.ext (Nat.succ.inj hj)
    obtain rfl := Host.Outcome.next.inj (e.symm.trans he)
    subst hu
    exact coherent_shufDone (h.running hb) ⟨hj0, hcur, hr⟩ hop
  · have hj0 : j ≠ 0 := by rintro rfl; exact hi1 (Fin.ext hj.symm)
    obtain rfl := Host.Outcome.next.inj (e.symm.trans he)
    subst hu
    exact coherent_shuf (h.running hb) hj0 hcur hr rfl hop

theorem execStDlatch_coherent (hst : s.st = .dlatch) (he : execStDlatch s = .next t) : Coherent t := by
  have hrest : AtRest s := h.atRest (by simp [hst]) (by simp [hst])
  obtain hop | hop := stateOfCommand_chain (by simp [hst]) h.command
  · simp only [execStDlatch, hop, Host.Outcome.next.injEq] at he
    exact he ▸ coherent_complete hrest
  · simp only [execStDlatch, hop, Host.Outcome.next.injEq] at he
    exact he ▸ coherent_straight (h.running hb) hrest rfl (by simp)

theorem execStCmp1_coherent (hst : s.st = .cmp1) (he : execStCmp1 s = .next t) : Coherent t := by
  have hrest : AtRest s := h.atRest (by simp [hst]) (by simp [hst])
  have hop := stateOfCommand_comparator (by simp [hst]) h.command
  unfold execStCmp1 at he
  split at he <;> obtain rfl := Host.Outcome.next.inj he
  · exact coherent_straight (h.running hb) hrest rfl (by obtain e | e := hop <;> simp [e, stateOfCommand])
  · exact coherent_compareDone (s := { s with le := false }) (h.running hb) hrest hop rfl

theorem execStCmp2_coherent (hst : s.st = .cmp2) (he : execStCmp2 s = .next t) : Coherent t := by
  have hrest : AtRest s := h.atRest (by simp [hst]) (by simp [hst])
  have hop := stateOfCommand_comparator (by simp [hst]) h.command
  obtain rfl := Host.Outcome.next.inj he
  exact coherent_compareDone (s := { s with le := fullCompare s.digest s.et }) (h.running hb) hrest hop
    (by split <;> rfl)

/-- The sequencer's turn while BUSY, state by state. -/
theorem exec_stateInstr_coherent (he : exec (stateInstr s.st) s = .next t) : Coherent t := by
  obtain ⟨hb', hd, hf⟩ := h.running hb
  have hcmd := h.command
  cases hst : s.st <;> rw [hst] at he hcmd
  case shuf => exact execStShuf_coherent h hb hst he
  case round =>
    obtain rfl := Host.Outcome.next.inj he
    exact coherent_runRound (s := { s with fallback := s.fallback || slotInvalid s.perm[s.r] }) h hb hst _
  all_goals obtain ⟨hi, hcur, hr⟩ := h.atRest (by simp [hst]) (by simp [hst])
  case idle => exact Host.Outcome.next.inj he ▸ h
  case tlatch => exact execStTlatch_coherent h hb hst he
  case conv =>
    obtain rfl := Host.Outcome.next.inj he
    exact coherent_straight ⟨hb', hd, hf⟩ ⟨hi, hcur, hr⟩ rfl ((stateOfCommand_generator s.op).1 hcmd)
  case seedgen =>
    obtain rfl := Host.Outcome.next.inj he
    exact coherent_straight ⟨hb', hd, hf⟩ ⟨hi, hcur, hr⟩ rfl ((stateOfCommand_generator s.op).2.1 hcmd)
  case pinit => exact execStPinit_coherent h hb hst he
  case dlatch => exact execStDlatch_coherent h hb hst he
  case cmp1 => exact execStCmp1_coherent h hb hst he
  case cmp2 => exact execStCmp2_coherent h hb hst he
  all_goals
    have hop : s.op = .search := stateOfCommand_loop (by simp) hcmd
    obtain rfl := Host.Outcome.next.inj he
  case loopchk =>
    exact coherent_straight ⟨hb', hd, hf⟩ ⟨hi, hcur, hr⟩ (by simp only; split <;> rfl) (by simp [hop])
  case nwrite => exact coherent_roundZero ⟨hb', hd, hf⟩ hi hcur rfl rfl (by simp [hop])
  case ninc => exact coherent_straight ⟨hb', hd, hf⟩ ⟨hi, hcur, hr⟩ rfl (by simp [hop])
  case foundx => exact coherent_complete ⟨hi, hcur, hr⟩
  case exitnf => exact coherent_complete ⟨hi, hcur, hr⟩

end

/-! ### A step of the machine -/

theorem seqStep_coherent {s t : State} (h : Coherent s) (he : seqStep s = .next t) : Coherent t := by
  cases hb : s.busy
  · rw [seqStep_idle hb] at he
    exact Host.Outcome.next.inj he ▸ h
  · rw [seqStep_busy hb] at he
    exact exec_stateInstr_coherent h hb he

/-- The block after reset is idle with its counters at rest, whatever the pins are. -/
theorem coherent_resetBlock (s : State) : Coherent (resetBlock s) :=
  ⟨(by decide : ControlInv State.reset), (by decide : ChainInv State.reset)⟩

theorem commandOutcome_coherent {s t : State} (h : Coherent s) (ho : CommandOutcome s t) : Coherent t := by
  cases ho with
  | refused _ | nop _ | clrf _ | reserved _ => exact h
  | sreset _ => exact coherent_resetBlock s
  | run idle op q row =>
    have hrow : straight q = true ∧ stateOfCommand op q = true := by
      revert row
      cases op <;> cases q <;> decide
    exact coherent_start h idle hrow.1 hrow.2
  | search idle => exact coherent_start (q := .tlatch) h idle rfl rfl

/-! No register of the host is control state: what `setReg` leaves as it is. -/

@[simp] theorem setReg_busy (reg : Reg) (v : Word) (s : State) : (setReg reg v s).busy = s.busy := by
  cases reg <;> simp only [setReg]
@[simp] theorem setReg_done (reg : Reg) (v : Word) (s : State) : (setReg reg v s).done = s.done := by
  cases reg <;> simp only [setReg]
@[simp] theorem setReg_found (reg : Reg) (v : Word) (s : State) : (setReg reg v s).found = s.found := by
  cases reg <;> simp only [setReg]
@[simp] theorem setReg_st (reg : Reg) (v : Word) (s : State) : (setReg reg v s).st = s.st := by
  cases reg <;> simp only [setReg]
@[simp] theorem setReg_op (reg : Reg) (v : Word) (s : State) : (setReg reg v s).op = s.op := by
  cases reg <;> simp only [setReg]
@[simp] theorem setReg_i (reg : Reg) (v : Word) (s : State) : (setReg reg v s).i = s.i := by
  cases reg <;> simp only [setReg]
@[simp] theorem setReg_cur (reg : Reg) (v : Word) (s : State) : (setReg reg v s).cur = s.cur := by
  cases reg <;> simp only [setReg]
@[simp] theorem setReg_r (reg : Reg) (v : Word) (s : State) : (setReg reg v s).r = s.r := by
  cases reg <;> simp only [setReg]

theorem setReg_coherent {s : State} (h : Coherent s) (reg : Reg) (v : Word) : Coherent (setReg reg v s) := by
  simpa only [Coherent, ControlInv, ChainInv, setReg_busy, setReg_done, setReg_found, setReg_st, setReg_op, setReg_i,
    setReg_cur, setReg_r] using h

theorem stepOutcome_coherent {s t : State} (h : Coherent s) (ho : StepOutcome s t) : Coherent t := by
  cases ho with
  | quiet _ _ _ | refusedWrite _ _ => exact h
  | held _ _ _ _ => exact coherent_resetBlock s
  | turn _ _ _ run => exact seqStep_coherent (s := { s with sched := s.sched.tail }) h run
  | command _ u run =>
    have hu : Coherent u := commandOutcome_coherent (s := { s with sched := s.sched.tail }) h run
    exact hu
  | takenWrite _ _ reg _ v => exact setReg_coherent (s := { s with sched := s.sched.tail }) h reg v

/-- Settles O56: every outcome of a step keeps the control state and the counters coherent. -/
theorem controlStaysCoherent : Obligations.ControlStaysCoherent :=
  fun _ _ hcontrol hchain hstep => stepOutcome_coherent ⟨hcontrol, hchain⟩ (step_outcome hstep)

end Sys2Proof.Machine

/-! PROOF. The sequencer writes none of the host's registers (10_state.md R10 to R13, 60_exceptions.md R191): the shared
operations of its steps leave them, and each step is made of these and of updates of other fields. -/

namespace Sys2Proof.Machine

/-- What the host's writes, the pins and the bus set, and nothing else, is the same in both states. -/
def SameHostSide (s t : State) : Prop :=
  t.hdr = s.hdr ∧ t.target = s.target ∧ t.nonceStart = s.nonceStart ∧ t.nonceMax = s.nonceMax ∧ t.bench = s.bench ∧
    t.err = s.err ∧ t.cancel = s.cancel ∧ t.rst = s.rst ∧ t.resp = s.resp

theorem SameHostSide.refl (s : State) : SameHostSide s s := ⟨rfl, rfl, rfl, rfl, rfl, rfl, rfl, rfl, rfl⟩

theorem complete_sameHostSide (s : State) : SameHostSide s (complete s) := ⟨rfl, rfl, rfl, rfl, rfl, rfl, rfl, rfl, rfl⟩

theorem compareDone_sameHostSide (q : SeqState) (s : State) : SameHostSide s (compareDone q s) := by
  obtain ⟨-, e⟩ | ⟨-, e⟩ | ⟨-, -, e⟩ := compareDone_cases q s <;> rw [e]
  · exact .refl s
  · exact complete_sameHostSide s
  · exact .refl s

theorem shufDone_sameHostSide (s : State) : SameHostSide s (shufDone s) := by
  obtain ⟨-, e⟩ | ⟨-, e⟩ | ⟨-, e⟩ | ⟨-, e⟩ := shufDone_cases s <;> rw [e]
  · exact complete_sameHostSide s
  all_goals exact .refl s

theorem roundBySel_sameHostSide (sel : Sel) (s : State) : SameHostSide s (roundBySel sel s) := by
  obtain ⟨t, ht, hframe⟩ := runRound_frame (Config.CF (slotUnit sel))
    { s with fallback := s.fallback || slotInvalid sel }
  rw [roundBySel, ht, hframe]
  exact .refl s

theorem execStTlatch_sameHostSide {s t : State} (he : execStTlatch s = .next t) : SameHostSide s t := by
  cases hop : s.op
  all_goals
    simp only [execStTlatch, hop, Host.Outcome.next.injEq] at he
    subst he
    exact ⟨rfl, rfl, rfl, rfl, rfl, rfl, rfl, rfl, rfl⟩

theorem execStDlatch_sameHostSide {s t : State} (he : execStDlatch s = .next t) : SameHostSide s t := by
  cases hop : s.op
  all_goals
    simp only [execStDlatch, hop, Host.Outcome.next.injEq] at he
    subst he
    exact ⟨rfl, rfl, rfl, rfl, rfl, rfl, rfl, rfl, rfl⟩

theorem execStShuf_sameHostSide {s t : State} (he : execStShuf s = .next t) : SameHostSide s t := by
  obtain ⟨-, e⟩ | ⟨j, u, -, hu, ⟨-, e⟩ | ⟨-, e⟩⟩ := execStShuf_cases s
  all_goals obtain rfl := Host.Outcome.next.inj (e.symm.trans he)
  · exact .refl s
  · subst hu
    exact shufDone_sameHostSide _
  · subst hu
    exact ⟨rfl, rfl, rfl, rfl, rfl, rfl, rfl, rfl, rfl⟩

theorem execStCmp1_sameHostSide {s t : State} (he : execStCmp1 s = .next t) : SameHostSide s t := by
  unfold execStCmp1 at he
  split at he <;> obtain rfl := Host.Outcome.next.inj he
  · exact .refl s
  · exact compareDone_sameHostSide .ninc { s with le := false }

theorem execStCmp2_sameHostSide {s t : State} (he : execStCmp2 s = .next t) : SameHostSide s t := by
  obtain rfl := Host.Outcome.next.inj he
  exact compareDone_sameHostSide _ { s with le := fullCompare s.digest s.et }

/-- The instruction of any sequencer state, in any state of the block. -/
theorem exec_stateInstr_sameHostSide {q : SeqState} {s t : State} (he : exec (stateInstr q) s = .next t) :
    SameHostSide s t := by
  cases q
  case tlatch => exact execStTlatch_sameHostSide he
  case dlatch => exact execStDlatch_sameHostSide he
  case shuf => exact execStShuf_sameHostSide he
  case cmp1 => exact execStCmp1_sameHostSide he
  case cmp2 => exact execStCmp2_sameHostSide he
  case round => exact Host.Outcome.next.inj he ▸ roundBySel_sameHostSide _ s
  all_goals
    obtain rfl := Host.Outcome.next.inj he
    exact ⟨rfl, rfl, rfl, rfl, rfl, rfl, rfl, rfl, rfl⟩

theorem seqStep_sameHostSide {s t : State} (he : seqStep s = .next t) : SameHostSide s t := by
  cases hb : s.busy
  · rw [seqStep_idle hb] at he
    exact Host.Outcome.next.inj he ▸ .refl s
  · rw [seqStep_busy hb] at he
    exact exec_stateInstr_sameHostSide he

/-- Settles O50: a step with `rst` released in which the sequencer has its turn is that turn. -/
theorem sequencerKeepsHostRegisters : Obligations.SequencerKeepsHostRegisters := by
  intro s t hr ha hstep
  rw [step_running s hr, ha] at hstep
  exact seqStep_sameHostSide (s := { s with sched := s.sched.tail }) hstep

end Sys2Proof.Machine

/-! PROOF. The register map (10_state.md R32): `regOfIndex` and `regOffset` are inverse to each other, so the table is read
off `regOffset`, and what `regOfIndex` leaves out are the reserved offsets. -/

namespace Sys2Proof.Machine

/-- The offset of a single register is four times its index. -/
theorem regOffset_singleReg {w : Nat} {reg : Reg} (h : singleReg w = some reg) : regOffset reg = 4 * w := by
  unfold singleReg at h
  split at h <;> cases h <;> rfl

/-- Beyond the thirteen single registers there is none. -/
theorem singleReg_none {w : Nat} (h : 13 ≤ w) : singleReg w = none := by
  obtain ⟨n, rfl⟩ := Nat.exists_eq_add_of_le' h
  rfl

/-- The ranges of word indexes of the window, with what `regOfIndex` answers in each. -/
inductive MapRow (w : Nat) : Option Reg → Prop
  | single (h : w < 16) : MapRow w (singleReg w)
  | target (j : Fin 8) (h : w = 16 + j.val) : MapRow w (some (.target j))
  | seed (j : Fin 8) (h : w = 24 + j.val) : MapRow w (some (.seed j))
  | hdr (j : Fin 20) (h : w = 32 + j.val) : MapRow w (some (.hdr j))
  | digestw (j : Fin 8) (h : w = 64 + j.val) : MapRow w (some (.digestw j))
  | etarget (j : Fin 8) (h : w = 72 + j.val) : MapRow w (some (.etarget j))
  | msgw (j : Fin 20) (h : w = 80 + j.val) : MapRow w (some (.msgw j))
  | bufaw (j : Fin 16) (h : w = 128 + j.val) : MapRow w (some (.bufaw j))
  | bufbw (j : Fin 16) (h : w = 144 + j.val) : MapRow w (some (.bufbw j))
  | reserved (h : (52 ≤ w ∧ w < 64) ∨ (100 ≤ w ∧ w < 128) ∨ 160 ≤ w) : MapRow w none

/-- Every index lies in one of the ranges. -/
theorem regOfIndex_row (w : Nat) : MapRow w (regOfIndex w) := by
  unfold regOfIndex
  by_cases h16 : w < 16
  · rw [if_pos h16]; exact .single h16
  rw [if_neg h16]
  by_cases h24 : w < 24
  · rw [dif_pos h24]; exact .target ⟨w - 16, by omega⟩ (show w = 16 + (w - 16) by omega)
  rw [dif_neg h24]
  by_cases h32 : w < 32
  · rw [dif_pos h32]; exact .seed ⟨w - 24, by omega⟩ (show w = 24 + (w - 24) by omega)
  rw [dif_neg h32]
  by_cases h52 : w < 52
  · rw [dif_pos h52]; exact .hdr ⟨w - 32, by omega⟩ (show w = 32 + (w - 32) by omega)
  rw [dif_neg h52]
  by_cases h64 : w < 64
  · rw [if_pos h64]; exact .reserved (by omega)
  rw [if_neg h64]
  by_cases h72 : w < 72
  · rw [dif_pos h72]; exact .digestw ⟨w - 64, by omega⟩ (show w = 64 + (w - 64) by omega)
  rw [dif_neg h72]
  by_cases h80 : w < 80
  · rw [dif_pos h80]; exact .etarget ⟨w - 72, by omega⟩ (show w = 72 + (w - 72) by omega)
  rw [dif_neg h80]
  by_cases h100 : w < 100
  · rw [dif_pos h100]; exact .msgw ⟨w - 80, by omega⟩ (show w = 80 + (w - 80) by omega)
  rw [dif_neg h100]
  by_cases h128 : w < 128
  · rw [if_pos h128]; exact .reserved (by omega)
  rw [if_neg h128]
  by_cases h144 : w < 144
  · rw [dif_pos h144]; exact .bufaw ⟨w - 128, by omega⟩ (show w = 128 + (w - 128) by omega)
  rw [dif_neg h144]
  by_cases h160 : w < 160
  · rw [dif_pos h160]; exact .bufbw ⟨w - 144, by omega⟩ (show w = 144 + (w - 144) by omega)
  rw [dif_neg h160]
  exact .reserved (by omega)

/-- The register at an index has the index's offset. -/
theorem regOffset_regOfIndex {w : Nat} {reg : Reg} (h : regOfIndex w = some reg) : regOffset reg = 4 * w := by
  have hrow := regOfIndex_row w
  rw [h] at hrow
  generalize hreg : some reg = answer at hrow
  cases hrow with
  | single _ => exact regOffset_singleReg hreg.symm
  | reserved _ => cases hreg
  | target j hw | seed j hw | hdr j hw | digestw j hw | etarget j hw | msgw j hw | bufaw j hw | bufbw j hw =>
    cases hreg
    rw [regOffset]
    omega

/-- The word indexes of the window at which no register stands. -/
theorem regOfIndex_reserved {w : Nat}
    (h : (13 ≤ w ∧ w < 16) ∨ (52 ≤ w ∧ w < 64) ∨ (100 ≤ w ∧ w < 128) ∨ 160 ≤ w) : regOfIndex w = none := by
  generalize hrow : regOfIndex w = answer
  have row : MapRow w answer := hrow ▸ regOfIndex_row w
  cases row with
  | single _ => exact singleReg_none (by omega)
  | reserved _ => rfl
  | target j hw | seed j hw | hdr j hw | digestw j hw | etarget j hw | msgw j hw | bufaw j hw | bufbw j hw =>
    have := j.isLt
    omega

/-- At a register's offset stands that register. -/
theorem regAt_regOffset (reg : Reg) : regAt (regOffset reg) = some reg := by
  cases reg with
  | target j | seed j | hdr j | digestw j | etarget j | msgw j | bufaw j | bufbw j =>
    revert j
    decide
  | _ => rfl

/-- A legal access of width 4 is one at a multiple of 4 inside the window (20_memory.md R41). -/
theorem accessLegal_word (addr : Nat) : accessLegal addr 4 = true ↔ addr % 4 = 0 ∧ addr < 0x400 := by
  simp [accessLegal]

/-- A register's offset is a legal 32-bit access. -/
theorem accessLegal_regOffset (reg : Reg) : accessLegal (regOffset reg) 4 = true := by
  cases reg with
  | target j | seed j | hdr j | digestw j | etarget j | msgw j | bufaw j | bufbw j =>
    rw [accessLegal_word, regOffset]
    omega
  | _ => rfl

/-- A legal offset at which a register stands is that register's. -/
theorem regOffset_regAt {addr : Nat} {reg : Reg} (hl : accessLegal addr 4 = true) (h : regAt addr = some reg) :
    regOffset reg = addr := by
  have hw : regOffset reg = 4 * (addr / 4) := regOffset_regOfIndex h
  rw [accessLegal_word] at hl
  omega

/-- The RW column of R32. -/
theorem regWritable_iff (reg : Reg) :
    regWritable reg = true ↔
      reg = .ctrl ∨ reg = .nonceStart ∨ reg = .nonceMax ∨ (∃ j, reg = .target j) ∨ (∃ j, reg = .seed j) ∨
        ∃ k, reg = .hdr k := by
  cases reg <;> simp [regWritable]

/-- Settles O4: each row of the table is `regAt_regOffset` at the row's register. -/
theorem registerMapOneToOne : Obligations.RegisterMapOneToOne := by
  refine ⟨?_, ?_, regWritable_iff, fun reg => ⟨regAt_regOffset reg, accessLegal_regOffset reg⟩,
    fun _ _ => regOffset_regAt⟩
  · exact ⟨rfl, rfl, rfl, rfl, rfl, rfl, rfl, rfl, rfl, rfl, rfl, rfl, rfl, fun j => regAt_regOffset (.target j),
      fun j => regAt_regOffset (.seed j), fun k => regAt_regOffset (.hdr k), fun j => regAt_regOffset (.digestw j),
      fun j => regAt_regOffset (.etarget j), fun k => regAt_regOffset (.msgw k), fun m => regAt_regOffset (.bufaw m),
      fun m => regAt_regOffset (.bufbw m)⟩
  · intro addr _ hreserved
    exact regOfIndex_reserved (by omega)

end Sys2Proof.Machine

/-! PROOF. STATUS as the host reads it (10_state.md R30): the packed word is a sum, each field at its own power of two, so
a field is read back by one division. -/

namespace Sys2Proof.Machine

/-- STATUS as a number. -/
theorem statusWord_toNat (s : State) :
    (statusWord s).toNat =
      s.i.val * 2 ^ 24 + s.r.val * 2 ^ 20 + (opCode s.op).toNat * 2 ^ 16 + (seqCode s.st).toNat * 2 ^ 8 +
        s.cur.toNat * 2 ^ 6 + s.fallback.toNat * 2 ^ 5 + s.err.toNat * 2 ^ 4 + s.le.toNat * 2 ^ 3 +
        s.found.toNat * 2 ^ 2 + s.done.toNat * 2 + s.busy.toNat := by
  have hi : s.i.val % 2 ^ 4 = s.i.val := Nat.mod_eq_of_lt (by omega)
  have hr : s.r.val % 2 ^ 4 = s.r.val := Nat.mod_eq_of_lt (by omega)
  simp only [statusWord, append_toNat_eq, BitVec.toNat_ofNat, BitVec.toNat_ofBool, hi, hr]
  omega

/-- A field of a word as a number. -/
theorem extract_toNat (w : Word) (a n : Nat) : (w.extractLsb' a n).toNat = w.toNat / 2 ^ a % 2 ^ n := by
  rw [BitVec.extractLsb'_toNat, Nat.shiftRight_eq_div_pow]

/-- The flags of STATUS and the zero bit above them. -/
theorem statusWord_flags (s : State) :
    (statusWord s).getLsbD 0 = s.busy ∧ (statusWord s).getLsbD 1 = s.done ∧ (statusWord s).getLsbD 2 = s.found ∧
      (statusWord s).getLsbD 3 = s.le ∧ (statusWord s).getLsbD 4 = s.err ∧ (statusWord s).getLsbD 5 = s.fallback ∧
      (statusWord s).getLsbD 6 = s.cur ∧ (statusWord s).getLsbD 7 = false := by
  simp only [statusWord, BitVec.getLsbD_append]
  simp

/-- The coded fields of STATUS and the zero bits between them. -/
theorem statusWord_codes (s : State) :
    ((statusWord s).extractLsb' 8 5).toNat = (seqCode s.st).toNat ∧
      ((statusWord s).extractLsb' 13 3).toNat = 0 ∧
      ((statusWord s).extractLsb' 16 4).toNat = (opCode s.op).toNat ∧
      ((statusWord s).extractLsb' 20 4).toNat = s.r.val ∧ ((statusWord s).extractLsb' 24 4).toNat = s.i.val ∧
      ((statusWord s).extractLsb' 28 4).toNat = 0 := by
  have hst := (seqCode s.st).isLt
  have hop := (opCode s.op).isLt
  have hi := s.i.isLt
  have hr := s.r.isLt
  have hcur := s.cur.toNat_lt
  have hfallback := s.fallback.toNat_lt
  have herr := s.err.toNat_lt
  have hle := s.le.toNat_lt
  have hfound := s.found.toNat_lt
  have hdone := s.done.toNat_lt
  have hbusy := s.busy.toNat_lt
  simp only [extract_toNat, statusWord_toNat]
  omega

/-- A write at a legal offset whose register is neither RW nor CMD is ignored: only the bus answers (20_memory.md R48). -/
theorem hostStep_write_readOnly (s : State) {addr : Nat} {reg : Reg} (v : Word) (hl : accessLegal addr 4 = true)
    (hreg : regAt addr = some reg) (hro : regWritable reg = false) (hcmd : reg ≠ .cmd) :
    ∃ resp, hostStep (.write addr 4 v) s = .next { s with resp := resp } := by
  obtain ⟨h, -⟩ | ⟨q, h, hrw, -⟩ | ⟨q, h, hrw, -⟩ | ⟨-, hw⟩ := writeOffset_cases addr v s
  · exact absurd (Option.some.inj (hreg.symm.trans h)) hcmd
  · simp [Option.some.inj (hreg.symm.trans h), hrw] at hro
  · simp [Option.some.inj (hreg.symm.trans h), hrw] at hro
  · exact ⟨.ack, hostStep_write s addr 4 v hl hw⟩

/-- The codes of the sequencer states (30_encoding.md R65). -/
theorem seqCode_rows : ∀ row ∈ [(SeqState.idle, 0), (.tlatch, 1), (.conv, 2), (.seedgen, 3), (.pinit, 4), (.shuf, 5),
    (.loopchk, 6), (.nwrite, 7), (.round, 8), (.dlatch, 9), (.cmp1, 10), (.cmp2, 11), (.foundx, 12), (.ninc, 13),
    (.exitnf, 14)], (seqCode row.1).toNat = row.2 := by decide

/-- The values of OP (10_state.md R29). -/
theorem opCode_rows : ∀ row ∈ [(RunOp.none, 0), (.deriveSeed, 1), (.deriveHdr, 2), (.hash, 3), (.search, 4),
    (.compare, 5)], (opCode row.1).toNat = row.2 := by decide

/-- Settles O45: the codes of ST and OP are the rows of R65 and R29. -/
theorem statusFields : Obligations.StatusFields := by
  intro s
  refine ⟨fun v => hostStep_write_readOnly s (reg := .status) v rfl rfl rfl (by simp), ?_⟩
  obtain ⟨hbusy, hdone, hfound, hle, herr, hfallback, hcur, hzero⟩ := statusWord_flags s
  obtain ⟨hst, hmid, hop, hr, hi, htop⟩ := statusWord_codes s
  exact ⟨hbusy, hdone, hfound, hle, herr, hfallback, hcur, hzero,
    fun row hrow e => hst.trans (e ▸ seqCode_rows row hrow), BitVec.eq_of_toNat_eq hmid,
    fun row hrow e => hop.trans (e ▸ opCode_rows row hrow), hr, hi, BitVec.eq_of_toNat_eq htop⟩

end Sys2Proof.Machine

/-! PROOF. The machine after reset (10_state.md R33): what the host reads of it, and that it meets the invariants. -/

namespace Sys2Proof.Machine

/-- A read looks at the block only, so after a reset it answers as after the first one. -/
theorem readReg_resetBlock (s : State) (reg : Reg) : readReg (resetBlock s) reg = readReg State.reset reg := by
  cases reg <;> rfl

/-- Every word of a cleared buffer is 0. -/
theorem wordAt_replicate_zero {n a : Nat} (h : a + 3 < n) : wordAt (Vector.replicate n (0 : Byte)) a h = 0 := by
  simp [wordAt, be32]

/-- After reset every register but the two of PERM reads 0. -/
theorem readReg_reset_zero {reg : Reg} (hlo : reg ≠ .permLo) (hhi : reg ≠ .permHi) : readReg State.reset reg = 0 := by
  cases reg with
  | permLo => exact absurd rfl hlo
  | permHi => exact absurd rfl hhi
  | target j | hdr j | etarget j => simp [readReg, State.reset]
  | seed j | msgw j | bufaw j | bufbw j => exact wordAt_replicate_zero _
  | digestw j => exact wordAt_replicate_zero _
  | _ => rfl

/-- Settles O53: SRESET of an idle block is a reset, and reads look at the block only. -/
theorem resetValuesAsRead : Obligations.ResetValuesAsRead :=
  ⟨rfl, rfl, fun _ => readReg_reset_zero, rfl, by decide, fun s hb =>
    ⟨resetBlock s, acceptCmd_idle resetBlock s hb, readReg_resetBlock s⟩⟩

/-- Settles O54: the permutation and the control state as after any reset, the rest at fixed values. -/
theorem resetMeetsInvariants : Obligations.ResetMeetsInvariants where
  perm := resetBlock_permInv State.reset
  control := (coherent_resetBlock State.reset).1
  chain := (coherent_resetBlock State.reset).2
  search := by decide
  le := by decide
  reset := fun _ => resetBlock_reset

end Sys2Proof.Machine

/-! PROOF. The host's transactions at an offset (20_memory.md R41, R47, R48): what an access answers and what a write does,
by whether the access is legal and which register stands at its offset. -/

namespace Sys2Proof.Machine

/-! ### Which accesses are legal -/

/-- Each of the three ways an access can be illegal, and no other (20_memory.md R41). -/
theorem accessLegal_eq_false (addr width : Nat) :
    accessLegal addr width = false ↔ width ≠ 4 ∨ addr % 4 ≠ 0 ∨ 0x400 ≤ addr := by
  simp only [accessLegal, decide_eq_false_iff_not]
  omega

/-- An illegal transaction faults, a read as a write. -/
theorem busAccess_illegal (s : State) {addr width : Nat} (v : Word) (h : accessLegal addr width = false) :
    busAccess (.read addr width) s = .fault (.busError addr) ∧
      busAccess (.write addr width v) s = .fault (.busError addr) := by
  simp [busAccess, h]

/-- Settles O40: the transaction faults, and the host's step turns the fault into the error answer. -/
theorem illegalAccessChangesNothing : Obligations.IllegalAccessChangesNothing := by
  intro s addr width v h
  have illegal : accessLegal addr width = false := (accessLegal_eq_false addr width).mpr h
  obtain ⟨hread, hwrite⟩ := busAccess_illegal s v illegal
  exact ⟨hread, hwrite, hostStep_illegal_read s addr width illegal, hostStep_illegal_write s addr width v illegal⟩

/-! ### Reserved offsets -/

/-- A legal offset that is no register's offset has no register. -/
theorem regAt_eq_none {addr : Nat} (hl : accessLegal addr 4 = true) (h : ∀ reg : Reg, regOffset reg ≠ addr) :
    regAt addr = none :=
  Option.eq_none_iff_forall_ne_some.mpr fun reg hreg => h reg (regOffset_regAt hl hreg)

/-! ### Reads -/

/-- At a register's offset the register is read. -/
theorem readOffset_regOffset (s : State) (reg : Reg) : readOffset s (regOffset reg) = readReg s reg := by
  rw [readOffset, regAt_regOffset]

/-- A reserved offset reads 0. -/
theorem readOffset_reserved (s : State) {addr : Nat} (h : regAt addr = none) : readOffset s addr = 0 := by
  rw [readOffset, h]

/-! ### Writes -/

/-- A write at an RW register's offset is taken, or while BUSY refused with ERR. -/
theorem writeOffset_writable (s : State) {addr : Nat} {reg : Reg} (v : Word) (hreg : regAt addr = some reg)
    (hrw : regWritable reg = true) :
    writeOffset addr v s = .next (if s.busy then setErr s else setReg reg v s) := by
  obtain ⟨h, -⟩ | ⟨q, h, -, hb, hw⟩ | ⟨q, h, -, hb, hw⟩ | ⟨h, -⟩ := writeOffset_cases addr v s
  · obtain rfl := Option.some.inj (hreg.symm.trans h)
    cases hrw
  · rw [hw, if_pos hb]
  · obtain rfl := Option.some.inj (hreg.symm.trans h)
    rw [hw, if_neg (by simp [hb])]
  · obtain ⟨hro, -⟩ := h reg hreg
    exact absurd (hrw.symm.trans hro) (by decide)

/-- A write where neither CMD nor an RW register stands is ignored. -/
theorem writeOffset_ignored (s : State) {addr : Nat} (v : Word)
    (h : ∀ reg, regAt addr = some reg → regWritable reg = false ∧ reg ≠ .cmd) : writeOffset addr v s = .next s := by
  have notWritable {reg : Reg} (hreg : regAt addr = some reg) : ¬regWritable reg = true := by simp [(h reg hreg).1]
  obtain ⟨hcmd, -⟩ | ⟨_, hreg, hrw, -⟩ | ⟨_, hreg, hrw, -⟩ | ⟨-, hw⟩ := writeOffset_cases addr v s
  · exact absurd rfl (h .cmd hcmd).2
  · exact absurd hrw (notWritable hreg)
  · exact absurd hrw (notWritable hreg)
  · exact hw

/-- Settles O43: the write is refused, falls on a read-only register, or falls on a reserved offset. -/
theorem refusedAndIgnoredWrites : Obligations.RefusedAndIgnoredWrites := by
  refine ⟨fun s reg v hb hrw => ?_, fun s reg v hro hcmd => ?_, fun s addr v hmul hlt hreserved => ?_⟩
  · have hw := writeOffset_writable s v (regAt_regOffset reg) hrw
    rw [if_pos hb] at hw
    exact hostStep_write s _ _ v (accessLegal_regOffset reg) hw
  · refine hostStep_write s _ _ v (accessLegal_regOffset reg) (writeOffset_ignored s v fun q hq => ?_)
    obtain rfl := Option.some.inj ((regAt_regOffset reg).symm.trans hq)
    exact ⟨hro, hcmd⟩
  · have hl : accessLegal addr 4 = true := (accessLegal_word addr).mpr ⟨hmul, hlt⟩
    exact hostStep_write s _ _ v hl (writeOffset_ignored s v (by simp [regAt_eq_none hl hreserved]))

end Sys2Proof.Machine

/-! PROOF. What a register reads (20_memory.md R42, R47; 10_state.md R13), and what it and the others read after a write
that it takes (20_memory.md R48). -/

namespace Sys2Proof.Machine

/-! ### The views as numbers -/

/-- CTRL reads BENCH in bit 0 and zeros above. -/
theorem ctrlWord_toNat (bench : Bool) : (ctrlWord bench).toNat = bench.toNat := by
  rw [ctrlWord, append_toNat_eq, BitVec.toNat_ofBool]
  simp

/-- The low half of a 64-bit register. -/
theorem lowHalf_toNat (x : DWord) : (x.extractLsb' 0 32).toNat = x.toNat % 2 ^ 32 := by
  simp [BitVec.extractLsb'_toNat]

/-- The high half of a 64-bit register. -/
theorem highHalf_toNat (x : DWord) : (x.extractLsb' 32 32).toNat = x.toNat / 2 ^ 32 := by
  have hx := x.isLt
  rw [BitVec.extractLsb'_toNat, Nat.shiftRight_eq_div_pow, Nat.mod_eq_of_lt (by omega)]

/-- A word view of a buffer as a number, its bytes taken from any vector with the buffer's bytes. -/
theorem wordAt_toNat {m n : Nat} (view : Vector Byte m) (buf : Vector Byte n) (e : buf.toList = view.toList) (b : Nat)
    (hv : b + 3 < m) (h : b + 3 < n) :
    (wordAt view b hv).toNat =
      buf[b].toNat * 2 ^ 24 + buf[b + 1].toNat * 2 ^ 16 + buf[b + 2].toNat * 2 ^ 8 + buf[b + 3].toNat := by
  obtain rfl : n = m := by simpa using congrArg List.length e
  obtain rfl : buf = view := Vector.toList_inj.mp e
  exact be32_toNat _ _ _ _

/-- Settles O41: a legal offset is CMD's, another register's or reserved. -/
theorem readsHaveNoSideEffect : Obligations.ReadsHaveNoSideEffect := by
  refine ⟨fun s addr hmul hlt => ?_, fun s => ?_⟩
  · have hl : accessLegal addr 4 = true := (accessLegal_word addr).mpr ⟨hmul, hlt⟩
    refine ⟨readOffset s addr, hostStep_read s addr 4 hl, ?_, ?_, ?_⟩
    · rintro reg rfl
      exact readOffset_regOffset s reg
    · exact fun h => readOffset_reserved s (regAt_eq_none hl h)
    · rintro rfl
      exact readOffset_regOffset s .cmd
  · exact ⟨ctrlWord_toNat s.bench, rfl, rfl, rfl, rfl, lowHalf_toNat s.hashesDone, highHalf_toNat s.hashesDone,
      lowHalf_toNat s.prng, highHalf_toNat s.prng, fun _ => rfl, fun _ => rfl, fun _ => rfl⟩

/-- Settles O44: each view is `wordAt` of its buffer, and a write of SEED[j] is `setWordAt` of SB. -/
theorem wordViewsAreBigEndian : Obligations.WordViewsAreBigEndian := by
  refine ⟨?_, fun s j v b => ?_⟩
  · rintro s n buf reg b h
      (⟨j, rfl, rfl, e⟩ | ⟨k, rfl, rfl, e⟩ | ⟨j, rfl, rfl, e⟩ | ⟨m, rfl, rfl, e⟩ | ⟨m, rfl, rfl, e⟩)
    all_goals exact wordAt_toNat _ buf e _ _ h
  · have hbyte : (setReg (.seed j) v s).sb[b] =
        if 4 * j.val ≤ b.val ∧ b.val < 4 * j.val + 4 then be32Byte v (b.val - 4 * j.val) else s.sb[b] :=
      setWordAt_get s.sb (4 * j.val) v b.val b.isLt
    rw [hbyte]
    split
    · exact be32Byte_toNat v _
    · rfl

/-! ### Reads after a write -/

/-- Of a value written to CTRL, bit 0 is read back (10_state.md R13). -/
theorem ctrlWord_bit0 (v : Word) : ctrlWord (v.getLsbD 0) = v &&& 1 := by
  apply BitVec.eq_of_toNat_eq
  rw [ctrlWord_toNat, BitVec.toNat_and, BitVec.getLsbD, Nat.toNat_testBit]
  simp [Nat.and_one_is_mod]

/-- An RW register reads back the value it took. -/
theorem readReg_setReg_same (s : State) {reg : Reg} (v : Word) (hrw : regWritable reg = true) :
    readReg (setReg reg v s) reg = if reg = .ctrl then v &&& 1 else v := by
  cases reg with
  | ctrl => exact ctrlWord_bit0 v
  | nonceStart | nonceMax => rfl
  | target j | hdr j => simp [readReg, setReg]
  | seed j => exact wordAt_setWordAt_same s.sb (4 * j.val) v _
  | _ => cases hrw

/-- Only the views SEED[j] look at SB. -/
theorem readReg_sb_other (s : State) (sb : Vector Byte 32) {reg : Reg} (h : ∀ j, reg ≠ .seed j) :
    readReg { s with sb := sb } reg = readReg s reg := by
  cases reg with
  | seed j => exact absurd rfl (h j)
  | _ => rfl

/-- A write reaches no other register: it goes to another field, or to another place of the same one. -/
theorem readReg_setReg_other (s : State) {reg other : Reg} (v : Word) (h : other ≠ reg) :
    readReg (setReg reg v s) other = readReg s other := by
  cases reg with
  | ctrl =>
    cases other with
    | ctrl => exact absurd rfl h
    | _ => rfl
  | nonceStart =>
    cases other with
    | nonceStart => exact absurd rfl h
    | _ => rfl
  | nonceMax =>
    cases other with
    | nonceMax => exact absurd rfl h
    | _ => rfl
  | target j =>
    cases other with
    | target k =>
      have apart : j.val ≠ k.val := fun e => h (congrArg Reg.target (Fin.ext e.symm))
      exact Vector.getElem_set_ne j.isLt k.isLt apart
    | _ => rfl
  | hdr j =>
    cases other with
    | hdr k =>
      have apart : j.val ≠ k.val := fun e => h (congrArg Reg.hdr (Fin.ext e.symm))
      exact Vector.getElem_set_ne j.isLt k.isLt apart
    | _ => rfl
  | seed j =>
    cases other with
    | seed k =>
      have apart : k.val ≠ j.val := fun e => h (congrArg Reg.seed (Fin.ext e))
      exact wordAt_setWordAt_other s.sb (4 * j.val) (4 * k.val) v _ (by omega)
    | _ => exact readReg_sb_other s _ (by simp)
  | _ => rfl

/-- The storage of the RW registers is all that a write can change. -/
theorem setReg_frame (reg : Reg) (v : Word) (s : State) :
    setReg reg v s =
      { s with hdr := (setReg reg v s).hdr, target := (setReg reg v s).target,
               nonceStart := (setReg reg v s).nonceStart, nonceMax := (setReg reg v s).nonceMax,
               bench := (setReg reg v s).bench, sb := (setReg reg v s).sb } := by
  cases reg <;> simp only [setReg]

/-- A read looks at no bus answer. -/
theorem readReg_resp (s : State) (resp : BusResp) (reg : Reg) : readReg { s with resp := resp } reg = readReg s reg := by
  cases reg <;> rfl

/-- Settles O42: the accepted write is `setReg`, acknowledged. -/
theorem writeReachesOneRegister : Obligations.WriteReachesOneRegister := by
  intro s reg v hb hrw
  have hw := writeOffset_writable s v (regAt_regOffset reg) hrw
  rw [if_neg (by simp [hb])] at hw
  refine ⟨_, hostStep_write s _ _ v (accessLegal_regOffset reg) hw, ?_, fun other hother => ?_, ?_⟩
  · exact (readReg_resp _ _ _).trans (readReg_setReg_same s v hrw)
  · exact (readReg_resp _ _ _).trans (readReg_setReg_other s v hother)
  · exact congrArg (fun t : State => { t with resp := .ack }) (setReg_frame reg v s)

end Sys2Proof.Machine

/-! PROOF. Decode and encode agree (30_encoding.md R60 to R65). Each decoder is sound for the encoder: what it answers
is well-formed and is encoded by the word it read. The CMD decoder is first put in terms of the two fields of a word. -/

namespace Sys2Proof

/-! ### Format CMD -/

/-- The fields ZERO and OPC make up the word (30_encoding.md R60). -/
theorem cmd_fields_append (w : Word) : w.extractLsb' 4 28 ++ w.extractLsb' 0 4 = w :=
  (BitVec.extractLsb'_append_extractLsb'_eq_extractLsb' rfl).trans BitVec.extractLsb'_eq_self

/-- Decoding a CMD word looks at its field ZERO first (30_encoding.md R62). -/
theorem decodeCmd_append (zero : BitVec 28) (opc : BitVec 4) :
    decodeCmd (zero ++ opc) = if zero = 0#28 then decodeOpc opc else .reservedHighbits zero opc := by
  rw [decodeCmd, BitVec.extractLsb'_append_eq_left, BitVec.extractLsb'_append_eq_right]

/-- A row of the CMD opcode map is encoded by its opcode under ZERO = 0 (30_encoding.md R61). -/
theorem decodeOpc_sound (opc : BitVec 4) :
    (decodeOpc opc).wf = true ∧ encode (decodeOpc opc) = .cmd (0#28 ++ opc) := by
  revert opc
  decide

/-- A CMD word is a row of the map or of the reserved class, by its field ZERO. -/
theorem decodeCmd_sound (w : Word) : (decodeCmd w).wf = true ∧ encode (decodeCmd w) = .cmd w := by
  rw [← cmd_fields_append w, decodeCmd_append]
  split
  next hzero =>
    rw [hzero]
    exact decodeOpc_sound _
  next hbits => exact ⟨bne_iff_ne.mpr hbits, rfl⟩

/-! ### Formats SEL and ST -/

/-- Each of the sixteen slot codes is its row's word (30_encoding.md R63). -/
theorem decodeSel_sound (c : Sel) : (decodeSel c).wf = true ∧ encode (decodeSel c) = .sel c := by
  revert c
  decide

/-- A state code that decodes is one of the fifteen rows; the last branch rejects it (30_encoding.md R65). -/
theorem decodeSt_sound {c : BitVec 5} {i : Instr} (h : decodeSt c = .ok i) : i.wf = true ∧ encode i = .st c := by
  unfold decodeSt at h
  split at h
  case h_16 => cases h
  all_goals
    rename c.toNat = _ => hc
    obtain rfl := Except.ok.inj h
    exact ⟨rfl, congrArg Encoded.st (BitVec.eq_of_toNat_eq hc.symm)⟩

/-! ### The three formats -/

/-- Every constructor but the reserved class has one word; that class needs its ZERO to be set. -/
theorem decode_encode {i : Instr} (h : i.wf = true) : decode (encode i) = .ok i := by
  cases i with
  | reservedHighbits zero opc =>
    have hbits : zero ≠ 0#28 := bne_iff_ne.mp h
    exact congrArg Except.ok ((decodeCmd_append zero opc).trans (if_neg hbits))
  | _ => rfl

/-- A word that decodes is the word of the well-formed instruction it decodes to. -/
theorem decode_sound {e : Encoded} {i : Instr} (h : decode e = .ok i) : i.wf = true ∧ encode i = e := by
  cases e with
  | cmd w =>
    obtain rfl := Except.ok.inj h
    exact decodeCmd_sound w
  | sel c =>
    obtain rfl := Except.ok.inj h
    exact decodeSel_sound c
  | st c => exact decodeSt_sound h

/-- Settles O1: `decode` undoes `encode` on well-formed instructions, `encode` undoes `decode` on words that decode. -/
theorem decodeEncodeAgree : Obligations.DecodeEncodeAgree :=
  ⟨fun _ => decode_encode, fun _ _ => decode_sound⟩

/-- A word whose instruction is known to be well-formed decodes to it. -/
theorem decode_of_encode {e : Encoded} {i : Instr} (hwf : i.wf = true) (h : encode i = e) : decode e = .ok i :=
  h ▸ decode_encode hwf

/-- Settles O2: each word is the encoding of its row. -/
theorem opcodeMapOfCmd : Obligations.OpcodeMapOfCmd := by
  refine ⟨?_, ?_, ?_, ?_, ?_, ?_, ?_, ?_, ?_, ?_, ?_, ?_, ?_, ?_, ?_, ?_⟩
  all_goals exact decode_of_encode rfl rfl

/-- Settles O3: five codes and a CMD word with bit 4 set are encodings, and the state code 15 is rejected by name. -/
theorem slotAndStateCodesDecode : Obligations.SlotAndStateCodesDecode := by
  refine ⟨?_, ?_, ?_, ?_, ?_, ?reserved, ?_⟩
  case reserved => rfl
  all_goals exact decode_of_encode rfl rfl

end Sys2Proof

/-! PROOF. The packed permutation (30_encoding.md R66): a word packed four bits an entry gives the entry at bit 0 at
once, and the entry at bit `a + 4` is at bit `a` of the word without the lowest entry. -/

namespace Sys2Proof.Machine

/-- A field above the lowest entry is a field of the word without it. -/
theorem extract_append_above {n : Nat} (x : BitVec n) (c : Sel) (a len : Nat) :
    (x ++ c).extractLsb' (a + 4) len = x.extractLsb' a len :=
  BitVec.extractLsb'_append_eq_of_le (Nat.le_add_left 4 a)

/-- PERM_LO, nibble by nibble: nibble 0 is the lowest entry, the others lie above it. -/
theorem permLo_nibble (p : Vector Sel 11) (j : Fin 8) : (permLo p).extractLsb' (4 * j.val) 4 = p[j.val] := by
  unfold permLo
  fin_cases j
  · exact BitVec.extractLsb'_append_eq_right
  all_goals simp only [extract_append_above, BitVec.extractLsb'_append_eq_right, BitVec.extractLsb'_eq_self]

/-- PERM_HI, nibble by nibble, below its zero bits. -/
theorem permHi_nibble (p : Vector Sel 11) (j : Fin 3) : (permHi p).extractLsb' (4 * j.val) 4 = p[8 + j.val] := by
  unfold permHi
  fin_cases j
  · exact BitVec.extractLsb'_append_eq_right
  all_goals simp only [extract_append_above, BitVec.extractLsb'_append_eq_right]

/-- The zero bits of PERM_HI lie above its three entries. -/
theorem permHi_top (p : Vector Sel 11) : (permHi p).extractLsb' 12 20 = 0 := by
  simp only [permHi, extract_append_above, BitVec.extractLsb'_eq_self]
  rfl

/-- Settles O46: the two registers read as `permLo` and `permHi` of PERM. -/
theorem packedPermutation : Obligations.PackedPermutation :=
  fun s => ⟨permLo_nibble s.perm, permHi_nibble s.perm, permHi_top s.perm⟩

end Sys2Proof.Machine

/-! PROOF. PERM stays a permutation of 0..10 and FALLBACK stays 0 (40_permutation.md R88, 60_exceptions.md R193). Three
steps have an entry of PERM or the flag in their hands: PINIT writes the identity, SHUF exchanges two entries, and ROUND
asks the mux for the slot code PERM[R], which a permutation has in range. Every other step leaves both as they are. -/

namespace Sys2Proof.Machine

/-! ### The shared operations -/

theorem compareDone_permInv {s : State} (h : PermInv s) (q : SeqState) : PermInv (compareDone q s) := by
  obtain ⟨-, e⟩ | ⟨-, e⟩ | ⟨-, -, e⟩ := compareDone_cases q s
  all_goals
    rw [e]
    exact h

theorem shufDone_permInv {s : State} (h : PermInv s) : PermInv (shufDone s) := by
  obtain ⟨-, e⟩ | ⟨-, e⟩ | ⟨-, e⟩ | ⟨-, e⟩ := shufDone_cases s
  all_goals
    rw [e]
    exact h

/-- A round whose slot code is in range takes no fallback. -/
theorem roundBySel_permInv {s : State} (h : PermInv s) {sel : Sel} (hsel : slotInvalid sel = false) :
    PermInv (roundBySel sel s) := by
  obtain ⟨hperm, hfallback⟩ := h
  obtain ⟨t, ht, hframe⟩ := runRound_frame (Config.CF (slotUnit sel))
    { s with fallback := s.fallback || slotInvalid sel }
  rw [roundBySel, ht, hframe]
  exact ⟨hperm, by simp [hfallback, hsel]⟩

/-! ### The steps of the sequencer -/

theorem execStTlatch_permInv {s t : State} (h : PermInv s) (he : execStTlatch s = .next t) : PermInv t := by
  cases hop : s.op
  all_goals
    simp only [execStTlatch, hop, Host.Outcome.next.injEq] at he
    exact he ▸ h

theorem execStDlatch_permInv {s t : State} (h : PermInv s) (he : execStDlatch s = .next t) : PermInv t := by
  cases hop : s.op
  all_goals
    simp only [execStDlatch, hop, Host.Outcome.next.injEq] at he
    exact he ▸ h

/-- A SHUF step exchanges two entries, whichever two. -/
theorem execStShuf_permInv {s t : State} (h : PermInv s) (he : execStShuf s = .next t) : PermInv t := by
  obtain ⟨hperm, hfallback⟩ := h
  have hswap : PermValid (s.perm.swap s.i.val (shufIndex (xorshift64 s.prng) s.i).val) := permValid_swap hperm _ _
  obtain ⟨-, e⟩ | ⟨j, u, -, hu, ⟨-, e⟩ | ⟨-, e⟩⟩ := execStShuf_cases s
  all_goals obtain rfl := Host.Outcome.next.inj (e.symm.trans he)
  · exact ⟨hperm, hfallback⟩
  · exact shufDone_permInv (hu ▸ ⟨hswap, hfallback⟩)
  · exact hu ▸ ⟨hswap, hfallback⟩

theorem execStCmp1_permInv {s t : State} (h : PermInv s) (he : execStCmp1 s = .next t) : PermInv t := by
  unfold execStCmp1 at he
  split at he <;> obtain rfl := Host.Outcome.next.inj he
  · exact h
  · exact compareDone_permInv (s := { s with le := false }) h .ninc

/-- The instruction of any sequencer state, in any state of the block. -/
theorem exec_stateInstr_permInv {q : SeqState} {s t : State} (h : PermInv s) (he : exec (stateInstr q) s = .next t) :
    PermInv t := by
  cases q
  case tlatch => exact execStTlatch_permInv h he
  case dlatch => exact execStDlatch_permInv h he
  case shuf => exact execStShuf_permInv h he
  case cmp1 => exact execStCmp1_permInv h he
  all_goals obtain rfl := Host.Outcome.next.inj he
  case pinit => exact ⟨permValid_identity, h.2⟩
  case round => exact roundBySel_permInv h (permValid_slot h.1 s.r)
  case cmp2 => exact compareDone_permInv (s := { s with le := fullCompare s.digest s.et }) h _
  all_goals exact h

theorem seqStep_permInv {s t : State} (h : PermInv s) (he : seqStep s = .next t) : PermInv t := by
  cases hb : s.busy
  · rw [seqStep_idle hb] at he
    exact Host.Outcome.next.inj he ▸ h
  · rw [seqStep_busy hb] at he
    exact exec_stateInstr_permInv h he

/-! ### A step of the machine -/

theorem commandOutcome_permInv {s t : State} (h : PermInv s) (ho : CommandOutcome s t) : PermInv t := by
  cases ho with
  | refused _ | nop _ | reserved _ | run _ _ _ _ | search _ => exact h
  | clrf _ => exact ⟨h.1, rfl⟩
  | sreset _ => exact resetBlock_permInv s

/-- PERM and FALLBACK are not the host's to write. -/
theorem setReg_permInv {s : State} (h : PermInv s) (reg : Reg) (v : Word) : PermInv (setReg reg v s) := by
  rw [setReg_frame]
  exact h

theorem stepOutcome_permInv {s t : State} (h : PermInv s) (ho : StepOutcome s t) : PermInv t := by
  cases ho with
  | quiet _ _ _ | refusedWrite _ _ => exact h
  | held _ _ _ _ => exact resetBlock_permInv s
  | turn _ _ _ run => exact seqStep_permInv (s := { s with sched := s.sched.tail }) h run
  | command _ u run =>
    have hu : PermInv u := commandOutcome_permInv (s := { s with sched := s.sched.tail }) h run
    exact hu
  | takenWrite _ _ reg _ v => exact setReg_permInv (s := { s with sched := s.sched.tail }) h reg v

/-- Settles O55: every outcome of a step keeps the permutation and takes no fallback. -/
theorem permutationStaysValid : Obligations.PermutationStaysValid :=
  fun _ _ h hstep => stepOutcome_permInv h (step_outcome hstep)

end Sys2Proof.Machine

/-! PROOF. What the steps of the permutation generator compute (40_permutation.md R82 to R86, R89): the operations on words
and bytes as arithmetic, then each step of the sequencer. -/

namespace Sys2Proof.Machine

/-! ### xorshift64 -/

/-- A left shift-and-XOR step: the shifted value loses what lies above bit 63. -/
theorem xor_shiftLeft_toNat (x : DWord) (n : Nat) :
    (x ^^^ (x <<< n)).toNat = x.toNat ^^^ (x.toNat * 2 ^ n % 2 ^ 64) := by
  rw [BitVec.toNat_xor, BitVec.toNat_shiftLeft, Nat.shiftLeft_eq]

/-- A right shift-and-XOR step. -/
theorem xor_shiftRight_toNat (x : DWord) (n : Nat) : (x ^^^ (x >>> n)).toNat = x.toNat ^^^ (x.toNat / 2 ^ n) := by
  rw [BitVec.toNat_xor, BitVec.toNat_ushiftRight, Nat.shiftRight_eq_div_pow]

/-- Settles O12: left, right, left, each step on the number of the one before. -/
theorem xorshift64Arithmetic : Obligations.Xorshift64Arithmetic := by
  intro x
  simp only [xorshift64, xor_shiftLeft_toNat, xor_shiftRight_toNat]

/-! ### CONV and SEEDGEN -/

/-- Byte `j` of header word `k`, among the words that are serialised (20_memory.md R43). -/
theorem serialise_wordByte {n : Nat} (hdr : Vector Word 20) (msg : Vector Byte 80) (k : Fin 20) (j : Fin 4)
    (hk : k.val < n) : (serialise n hdr msg)[4 * k.val + j.val] = be32Byte hdr[k] j.val := by
  have hdiv : (4 * k.val + j.val) / 4 = k.val := by omega
  have hmod : (4 * k.val + j.val) % 4 = j.val := by omega
  simp [serialise_get, hdiv, hmod, hk]

/-- A byte after the words that are serialised is kept. -/
theorem serialise_kept {n : Nat} (hdr : Vector Word 20) (msg : Vector Byte 80) (b : Fin 80) (hb : 4 * n ≤ b.val) :
    (serialise n hdr msg)[b] = msg[b] :=
  (serialise_get n hdr msg b.val b.isLt).trans (if_neg (by omega))

/-- Settles O13: the message is serialised over 19 words in a SEARCH, else over 20. -/
theorem convSerialisesHeader : Obligations.ConvSerialisesHeader := by
  intro s
  refine ⟨_, rfl, rfl, fun k j hk => ?_, fun hop b hb => ?_⟩
  · have hcount : k.val < if s.op = .search then 19 else 20 := by
      split
      next hop => exact hk.resolve_right (not_not.mpr hop)
      next => exact k.isLt
    exact (congrArg BitVec.toNat (serialise_wordByte s.hdr s.msg k j hcount)).trans (be32Byte_toNat _ _)
  · exact serialise_kept s.hdr s.msg b (by rw [if_pos hop]; exact hb)

/-- A window is determined by its bytes. -/
theorem eq_window {n a len : Nat} {buf : Vector Byte n} (h : a + len ≤ n) {v : Vector Byte len}
    (hv : ∀ j : Fin len, v[j] = buf[a + j.val]) : v = window buf a len h :=
  Vector.ext fun j hj => (hv ⟨j, hj⟩).trans (window_get buf a len h j hj).symm

/-- Settles O14: the 32 bytes given are the window MSG[4..35]. -/
theorem seedgenHashesPreviousHash : Obligations.SeedgenHashesPreviousHash := by
  intro s ph hph
  rw [eq_window (by decide) hph]
  rfl

/-! ### PINIT -/

/-- `LE64` as a number: the first byte is the least significant (20_memory.md R44). -/
theorem le64_toNat (sb : Vector Byte 32) (j : Fin 4) :
    (le64 sb j).toNat =
      sb[8 * j.val].toNat + sb[8 * j.val + 1].toNat * 2 ^ 8 + sb[8 * j.val + 2].toNat * 2 ^ 16 +
        sb[8 * j.val + 3].toNat * 2 ^ 24 + sb[8 * j.val + 4].toNat * 2 ^ 32 + sb[8 * j.val + 5].toNat * 2 ^ 40 +
        sb[8 * j.val + 6].toNat * 2 ^ 48 + sb[8 * j.val + 7].toNat * 2 ^ 56 := by
  simp only [le64, append_toNat_eq]
  omega

theorem identityPerm_toNat (j : Fin 11) : identityPerm[j].toNat = j.val := by
  revert j
  decide

/-- Settles O15: the four numbers are those of the words that PINIT folds. -/
theorem pinitFoldsSeed : Obligations.PinitFoldsSeed := by
  intro s w hw
  have hle (j : Fin 4) : w j = le64 s.sb j := BitVec.eq_of_toNat_eq ((hw j).trans (le64_toNat s.sb j).symm)
  refine ⟨_, rfl, rfl, ?_, identityPerm_toNat⟩
  simp only [hle]

/-! ### SHUF -/

/-- An entry after an exchange. -/
theorem perm_swap_get (p : Vector Sel 11) (i r k : Fin 11) :
    (p.swap i.val r.val)[k] = if k = i then p[r] else if k = r then p[i] else p[k] := by
  simp [Vector.getElem_swap, Fin.ext_iff]

/-- The last iteration of a command that only derives completes it. -/
theorem shufDone_derive {s : State} (hop : s.op = .deriveSeed ∨ s.op = .deriveHdr) : shufDone s = complete s := by
  unfold shufDone
  obtain e | e := hop <;> rw [e]

/-- In a HASH the chain begins. -/
theorem shufDone_hash {s : State} (hop : s.op = .hash) : shufDone s = { s with r := 0, st := .round } := by
  rw [shufDone, hop]

/-- In a SEARCH the loop of the nonces begins. -/
theorem shufDone_search {s : State} (hop : s.op = .search) : shufDone s = { s with st := .loopchk } := by
  rw [shufDone, hop]

/-- Whatever OP is, only R, ST and the two flags can change. -/
theorem shufDone_frame (s : State) :
    shufDone s = { s with r := (shufDone s).r, st := (shufDone s).st, busy := (shufDone s).busy,
                          done := (shufDone s).done } := by
  obtain ⟨-, e⟩ | ⟨-, e⟩ | ⟨-, e⟩ | ⟨-, e⟩ := shufDone_cases s
  · simp only [e, complete]
  all_goals simp only [e]

/-- What becomes of them, by OP (40_permutation.md R86). -/
theorem shufDone_successor (s : State) :
    (s.op = .deriveSeed ∨ s.op = .deriveHdr →
        (shufDone s).st = .idle ∧ (shufDone s).r = s.r ∧ (shufDone s).busy = false ∧ (shufDone s).done = true) ∧
      (s.op = .hash →
        (shufDone s).st = .round ∧ (shufDone s).r = 0 ∧ (shufDone s).busy = s.busy ∧ (shufDone s).done = s.done) ∧
      (s.op = .search →
        (shufDone s).st = .loopchk ∧ (shufDone s).r = s.r ∧ (shufDone s).busy = s.busy ∧
          (shufDone s).done = s.done) := by
  refine ⟨fun hop => ?_, fun hop => ?_, fun hop => ?_⟩
  · simp [shufDone_derive hop]
  · simp [shufDone_hash hop]
  · simp [shufDone_search hop]

/-- Settles O16: `r` is `shufIndex`, and the last iteration goes on as `shufDone` says. -/
theorem shufOneIteration : Obligations.ShufOneIteration := by
  intro s r hi hr _
  obtain rfl : r = shufIndex (xorshift64 s.prng) s.i := Fin.ext hr
  have hperm := perm_swap_get s.perm s.i (shufIndex (xorshift64 s.prng) s.i)
  obtain ⟨hi0, -⟩ | ⟨j, u, hj, hu, ⟨hi1, e⟩ | ⟨hi1, e⟩⟩ := execStShuf_cases s
  · exact absurd hi0 hi
  · obtain ⟨hderive, hhash, hsearch⟩ := shufDone_successor u
    rw [shufDone_frame] at e
    subst hu
    exact ⟨_, e, rfl, Nat.eq_sub_of_add_eq hj, hperm, fun h => absurd hi1 h, fun _ => hderive, fun _ => hhash,
      fun _ => hsearch⟩
  · subst hu
    exact ⟨_, e, rfl, Nat.eq_sub_of_add_eq hj, hperm, fun _ => ⟨rfl, rfl, rfl, rfl⟩, fun h => absurd h hi1,
      fun h => absurd h hi1, fun h => absurd h hi1⟩

/-! ### The shuffle of a zero state -/

/-- From 0 the generator stays at 0, so every iteration exchanges its entry with entry 0 (40_permutation.md R89). -/
theorem shuffleOnce_zero (p : Vector Sel 11) (i : Fin 11) : shuffleOnce (0, p) i = (0, p.swap i.val 0) := by
  have hindex : shufIndex 0 i = 0 := Fin.ext (Nat.zero_mod _)
  simp only [shuffleOnce, xorshift64_zero, hindex]
  rfl

theorem foldl_shuffleOnce_zero (order : List (Fin 11)) (p : Vector Sel 11) :
    order.foldl shuffleOnce (0, p) = (0, order.foldl (fun q i => q.swap i.val 0) p) := by
  induction order generalizing p with
  | nil => rfl
  | cons i order ih => rw [List.foldl_cons, shuffleOnce_zero, ih, List.foldl_cons]

/-- Exchanging the entries 10 down to 1 with entry 0 rotates the identity. -/
theorem identityPerm_rotated :
    shuffleOrder.foldl (fun q i => q.swap i.val 0) identityPerm = #v[1, 2, 3, 4, 5, 6, 7, 8, 9, 10, 0] := by
  decide

/-- Settles O17: the shuffle of a seed that folds to 0 begins at 0. -/
theorem zeroSeedGivesRotation : Obligations.ZeroSeedGivesRotation := by
  intro seed hseed
  rw [deriveFromSeed, hseed, foldl_shuffleOnce_zero, identityPerm_rotated]

end Sys2Proof.Machine

/-! PROOF. Runs of the sequencer alone, and the derivations of a permutation as such runs (40_permutation.md R80, R81). A
run that is BUSY until its end is put together from shorter ones; the ten SHUF steps are one of them, by induction on I. -/

namespace Sys2Proof.Machine

/-! ### Runs that are BUSY until their end -/

/-- `k` steps lead from `s` to `t`, and the block is BUSY before each of them. -/
def BusyRun (k : Nat) (s t : State) : Prop :=
  run k s = .next t ∧ ∀ (j : Nat) (u : State), j < k → run j s = .next u → u.busy = true

theorem BusyRun.refl (s : State) : BusyRun 0 s s :=
  ⟨rfl, fun _ _ h => absurd h (Nat.not_lt_zero _)⟩

/-- One step more at the front. -/
theorem BusyRun.step {k : Nat} {s t u : State} (hb : s.busy = true) (hs : Machine.step s = .next t)
    (h : BusyRun k t u) : BusyRun (k + 1) s u := by
  obtain ⟨hrun, hbusy⟩ := h
  refine ⟨(run_succ k hs).trans hrun, fun j v hj hv => ?_⟩
  cases j with
  | zero => exact Host.Outcome.next.inj hv ▸ hb
  | succ j => exact hbusy j v (Nat.lt_of_succ_lt_succ hj) ((run_succ j hs).symm.trans hv)

/-- One run after the other. -/
theorem BusyRun.trans {j k : Nat} {s t u : State} (h₁ : BusyRun j s t) (h₂ : BusyRun k t u) : BusyRun (j + k) s u := by
  obtain ⟨hrun₁, hbusy₁⟩ := h₁
  obtain ⟨hrun₂, hbusy₂⟩ := h₂
  refine ⟨(run_add j k hrun₁).trans hrun₂, fun i v hi hv => ?_⟩
  by_cases hij : i < j
  · exact hbusy₁ i v hij hv
  · obtain ⟨l, rfl⟩ := Nat.exists_eq_add_of_le (Nat.le_of_not_lt hij)
    exact hbusy₂ l v (by omega) ((run_add j l hrun₁).symm.trans hv)

/-- One turn of an undisturbed sequencer more at the front: the instruction of its state. -/
theorem BusyRun.turn {k : Nat} {q : SeqState} {s t u : State} (hu : Undisturbed s) (hb : s.busy = true) (hst : s.st = q)
    (he : exec (stateInstr q) s = .next t) (h : BusyRun k t u) : BusyRun (k + 1) s u :=
  .step hb ((step_busy hu hb (hst ▸ decode_seqCode s.st)).trans he) h

/-! ### The shuffle -/

/-- The indexes of a shuffle that begins at `n`: `n` down to 1. -/
def shuffleFrom : Nat → List (Fin 11)
  | 0 => []
  | n + 1 => Fin.ofNat 11 (n + 1) :: shuffleFrom n

/-- From 10 they are those of R87. -/
theorem shuffleFrom_ten : shuffleFrom 10 = shuffleOrder := rfl

/-- The block at SHUF with PRNG and PERM shuffled over some indexes, and I counted down. -/
def shuffled (order : List (Fin 11)) (s : State) : State :=
  { s with
    prng := (order.foldl shuffleOnce (s.prng, s.perm)).1
    perm := (order.foldl shuffleOnce (s.prng, s.perm)).2
    i := 0
    st := .shuf }

/-- The last SHUF step. -/
theorem execStShuf_last {s : State} (hst : s.st = .shuf) (hi : s.i = 1) :
    execStShuf s = .next (shufDone (shuffled [1] s)) := by
  obtain ⟨hi0, -⟩ | ⟨j, u, hj, hu, ⟨-, e⟩ | ⟨hi1, -⟩⟩ := execStShuf_cases s
  · rw [hi] at hi0
    cases hi0
  · obtain rfl : j = 0 := Fin.ext (by rw [hi] at hj; exact Nat.succ.inj hj)
    simp only [hi, hst] at hu
    rw [e, hu]
    rfl
  · exact absurd hi hi1

/-- A SHUF step before the last one does the first index of what is left, and stays in SHUF. -/
theorem execStShuf_before_last {s : State} {n : Nat} (hi : s.i.val = n + 2) :
    ∃ t, execStShuf s = .next t ∧ (Undisturbed s → Undisturbed t) ∧ t.busy = s.busy ∧ t.st = .shuf ∧ t.i.val = n + 1 ∧
      ∀ order, shuffled order t = shuffled (s.i :: order) s := by
  obtain ⟨hi0, -⟩ | ⟨j, u, hj, rfl, ⟨hi1, -⟩ | ⟨-, e⟩⟩ := execStShuf_cases s
  · simp [hi0] at hi
  · simp [hi1] at hi
  · exact ⟨_, e, id, rfl, rfl, by simp only; omega, fun _ => rfl⟩

/-- The SHUF steps from I = `n + 1` on: one iteration each, the last going on as OP says. -/
theorem busyRun_shuf (n : Nat) {s : State} (hu : Undisturbed s) (hb : s.busy = true) (hst : s.st = .shuf)
    (hi : s.i.val = n + 1) : BusyRun (n + 1) s (shufDone (shuffled (shuffleFrom (n + 1)) s)) := by
  induction n generalizing s with
  | zero => exact .turn hu hb hst (execStShuf_last hst (Fin.ext hi)) (.refl _)
  | succ n ih =>
    obtain ⟨t, he, hut, hbt, hstt, hit, hrest⟩ := execStShuf_before_last hi
    have hfirst : Fin.ofNat 11 (n + 2) = s.i := Fin.ext (by rw [← hi]; exact Nat.mod_eq_of_lt s.i.isLt)
    rw [shuffleFrom, hfirst, ← hrest]
    exact .turn hu hb hst he (ih (hut hu) (hbt.trans hb) hstt hit)

/-! ### The generator from PINIT and from CONV -/

/-- The block at SHUF with the derivation from its seed done. -/
def derived (s : State) : State :=
  { s with prng := (deriveFromSeed s.sb).1, perm := (deriveFromSeed s.sb).2, i := 0, st := .shuf }

/-- The block with the header converted, 19 words of it in a SEARCH, and the seed hashed from the message. -/
def headerSeeded (s : State) : State :=
  let msg := serialise (if s.op = .search then 19 else 20) s.hdr s.msg
  { s with msg := msg, sb := Config.SHA256 (previousHash msg) }

/-- PINIT and the ten SHUF steps are `derive_from_seed` of SB (40_permutation.md R87 steps 2 to 6). -/
theorem busyRun_pinit {s : State} (hu : Undisturbed s) (hb : s.busy = true) (hst : s.st = .pinit) :
    BusyRun 11 s (shufDone (derived s)) := by
  have hshuf := busyRun_shuf 9 (s := { s with prng := seedState s.sb, perm := identityPerm, i := 10, st := .shuf }) hu
    hb rfl rfl
  rw [shuffleFrom_ten] at hshuf
  exact .turn hu hb hst rfl hshuf

/-- From CONV on, the seed is that of the header. -/
theorem busyRun_conv {s : State} (hu : Undisturbed s) (hb : s.busy = true) (hst : s.st = .conv) :
    BusyRun 13 s (shufDone (derived (headerSeeded s))) := by
  have ⟨hsched, hrst⟩ := hu
  have hseed : BusyRun 2 s { headerSeeded s with st := .pinit } :=
    .turn hu hb hst rfl (.turn (q := .seedgen) ⟨hsched, hrst⟩ hb rfl rfl (.refl _))
  have hpinit : BusyRun 11 { headerSeeded s with st := .pinit } (shufDone (derived (headerSeeded s))) :=
    busyRun_pinit (s := { headerSeeded s with st := .pinit }) ⟨hsched, hrst⟩ hb rfl
  exact hseed.trans hpinit

/-- All twenty words are the whole message. -/
theorem serialise_all (hdr : Vector Word 20) (msg : Vector Byte 80) : serialise 20 hdr msg = headerBytes hdr := by
  refine Vector.ext fun b hb => ?_
  rw [serialise_get, if_pos (by omega)]
  simp [headerBytes]

/-- In every command but SEARCH the whole header is converted. -/
theorem headerSeeded_whole {s : State} (hop : s.op ≠ .search) :
    headerSeeded s =
      { s with msg := headerBytes s.hdr, sb := Config.SHA256 (previousHash (headerBytes s.hdr)) } := by
  rw [headerSeeded, if_neg hop, serialise_all]

/-! ### The two commands -/

/-- Settles O18: the run from PINIT, after the start. -/
theorem deriveSeedComputesPermutation : Obligations.DeriveSeedComputesPermutation := by
  intro s hidle hu
  obtain ⟨hrun, hbusy⟩ := busyRun_pinit (s := start .deriveSeed .pinit s) hu rfl rfl
  rw [shufDone_derive (.inl rfl)] at hrun
  refine ⟨_, _, acceptCmd_idle _ s hidle, hrun, ?_, hbusy⟩
  simp only [complete, derived, start, hidle]

/-- Settles O19: the run from CONV, after the start. -/
theorem deriveHdrComputesPermutation : Obligations.DeriveHdrComputesPermutation := by
  intro s hidle hu
  have hwhole := headerSeeded_whole (s := start .deriveHdr .conv s) (by simp)
  obtain ⟨hrun, hbusy⟩ := busyRun_conv (s := start .deriveHdr .conv s) hu rfl rfl
  rw [hwhole, shufDone_derive (.inr rfl)] at hrun
  refine ⟨_, _, acceptCmd_idle _ s hidle, hrun, ?_, hbusy⟩
  simp only [complete, derived, start, derivePermutation, hidle]

end Sys2Proof.Machine

/-! PROOF. The rounds of the hash chain one by one (41_hashchain.md R101 to R104). The mux is said once; a slot code, as an
instruction, runs the round with the mux at it, and step ROUND is that instruction for PERM[R]. -/

namespace Sys2Proof.Machine

/-! ### The mux -/

/-- What a round is given for a slot code, in range or not. -/
theorem muxGives_slotUnit (sel : Sel) (before : Bool) : MuxGives sel before (before || slotInvalid sel) (slotUnit sel) := by
  refine ⟨fun hin => ⟨slotUnit_inRange sel hin, ?_⟩, fun hout => ⟨slotUnit_outOfRange sel hout, ?_⟩⟩
  · simp [slotInvalid, Nat.not_lt.mpr hin]
  · simp [slotInvalid, hout]

/-- For a slot code in range the round is one with its unit, and nothing else. -/
theorem roundBySel_inRange {sel : Sel} (h : slotInvalid sel = false) (s : State) :
    roundBySel sel s = runRound (slotFn sel) s := by
  rw [roundBySel, h, Bool.or_false, slotFn]

/-- The rows of format SEL: a slot code runs the round with the mux at it (30_encoding.md R63, R64). -/
theorem exec_of_encode_sel {i : Instr} {c : Sel} (h : encode i = .sel c) (s : State) :
    exec i s = .next (roundBySel c s) := by
  cases i <;> cases h
  all_goals rfl

/-! ### A round with the mux at a slot code -/

/-- Round 0 (41_hashchain.md R102). -/
theorem roundBySel_zero (sel : Sel) {s : State} (h : s.r = 0) :
    roundBySel sel s =
      { s with bufa := Config.CF (slotUnit sel) s.msg.toList, cur := false, r := 1, st := .round,
               fallback := s.fallback || slotInvalid sel } :=
  runRound_zero _ { s with fallback := s.fallback || slotInvalid sel } h

/-- A later round (41_hashchain.md R103). -/
theorem roundBySel_later (sel : Sel) {s : State} (h : s.r ≠ 0) :
    ∃ t, roundBySel sel s = t ∧
      t = { s with bufa := t.bufa, bufb := t.bufb, cur := !s.cur, r := t.r, st := t.st,
                   fallback := s.fallback || slotInvalid sel } ∧
      (s.cur = false → t.bufb = Config.CF (slotUnit sel) s.bufa.toList ∧ t.bufa = s.bufa) ∧
      (s.cur = true → t.bufa = Config.CF (slotUnit sel) s.bufb.toList ∧ t.bufb = s.bufb) ∧
      (s.r.val = 10 → t.r = s.r ∧ t.st = .dlatch) ∧ (s.r.val ≠ 10 → t.r.val = s.r.val + 1 ∧ t.st = .round) :=
  runRound_later _ { s with fallback := s.fallback || slotInvalid sel } h

/-- Settles O20: the round with the mux at PERM[0]. -/
theorem roundZeroHashesMessage : Obligations.RoundZeroHashesMessage := by
  intro s h
  have hslot : s.perm[s.r] = s.perm[0] := congrArg (fun r : Fin 11 => s.perm[r]) h
  have hround : roundBySel s.perm[s.r] s = _ := (congrArg (roundBySel · s) hslot).trans (roundBySel_zero _ h)
  exact ⟨_, slotUnit s.perm[0], congrArg Host.Outcome.next hround, muxGives_slotUnit _ _, rfl⟩

/-- Settles O21: the later round with the mux at PERM[R]. -/
theorem laterRoundsSwapBuffers : Obligations.LaterRoundsSwapBuffers := by
  intro s h
  obtain ⟨t, ht, hframe, hbuffers⟩ := roundBySel_later s.perm[s.r] h
  have hfallback : t.fallback = (s.fallback || slotInvalid s.perm[s.r]) := congrArg State.fallback hframe
  rw [← hfallback] at hframe
  exact ⟨t, slotUnit s.perm[s.r], congrArg Host.Outcome.next ht, hfallback ▸ muxGives_slotUnit _ _, hframe, hbuffers⟩

/-- Settles O22: the instruction is the round with the mux at its code, round 0 or a later one by R. -/
theorem slotCodeSelectsUnit : Obligations.SlotCodeSelectsUnit := by
  intro i c s hc
  have hexec : exec i s = .next (roundBySel c s) := exec_of_encode_sel hc s
  by_cases h : s.r = 0
  · rw [roundBySel_zero c h] at hexec
    exact ⟨_, slotUnit c, hexec, muxGives_slotUnit _ _, rfl, fun _ => ⟨rfl, rfl, rfl, rfl, rfl⟩, fun h' => absurd h h'⟩
  · obtain ⟨t, ht, hframe, hbuffers⟩ := roundBySel_later c h
    have hfallback : t.fallback = (s.fallback || slotInvalid c) := congrArg State.fallback hframe
    have hcur : t.cur = !s.cur := congrArg State.cur hframe
    rw [← hfallback, ← hcur] at hframe
    exact ⟨t, slotUnit c, ht ▸ hexec, hfallback ▸ muxGives_slotUnit _ _, hframe, fun h' => absurd h' h,
      fun _ => ⟨hcur, hbuffers⟩⟩

/-- Settles O23: both are the round with the mux at PERM[R]. -/
theorem roundRunsSlotOfPerm : Obligations.RoundRunsSlotOfPerm := by
  intro s
  obtain ⟨-, hsel⟩ := decodeSel_sound s.perm[s.r]
  exact ⟨decodeSel s.perm[s.r], rfl, (exec_of_encode_sel hsel s).symm⟩

/-! ### DLATCH -/

/-- The buffer that holds the last output, as CUR says (10_state.md R19). -/
def currentBuffer (s : State) : Vector Byte 64 := if s.cur then s.bufb else s.bufa

/-- What DLATCH latches: the first 32 bytes of the current buffer (41_hashchain.md R104). -/
def currentDigest (s : State) : Vector Byte 32 := window (currentBuffer s) 0 32

theorem currentDigest_eq (s : State) : currentDigest s = if s.cur then window s.bufb 0 32 else window s.bufa 0 32 := by
  unfold currentDigest currentBuffer
  split <;> rfl

theorem currentDigest_get (s : State) (b : Nat) (hb : b < 32) :
    (currentDigest s)[b] = if s.cur then s.bufb[b] else s.bufa[b] := by
  unfold currentDigest currentBuffer
  split <;> simp only [window_get, Nat.zero_add]

/-- In a HASH the digest completes the command. -/
theorem execStDlatch_hash {s : State} (hop : s.op = .hash) :
    execStDlatch s = .next (complete { s with digest := currentDigest s }) := by
  simp only [execStDlatch, currentDigest_eq, hop]

/-- In a SEARCH the digest goes to the comparator. -/
theorem execStDlatch_search {s : State} (hop : s.op = .search) :
    execStDlatch s = .next { s with digest := currentDigest s, st := .cmp1 } := by
  simp only [execStDlatch, currentDigest_eq, hop]

/-- Settles O24: the digest is the same in both commands, and each goes on its own way. -/
theorem dlatchTakesCurrentBuffer : Obligations.DlatchTakesCurrentBuffer := by
  intro s hop
  have hdigest (b : Fin 32) : (currentDigest s)[b] = if s.cur then s.bufb[b.val] else s.bufa[b.val] :=
    currentDigest_get s b.val b.isLt
  obtain hop | hop := hop
  · exact ⟨_, execStDlatch_hash hop, rfl, hdigest, fun _ => ⟨rfl, rfl, rfl⟩, fun h => by simp [hop] at h⟩
  · exact ⟨_, execStDlatch_search hop, rfl, hdigest, fun h => by simp [hop] at h, fun _ => ⟨rfl, rfl, rfl⟩⟩

end Sys2Proof.Machine

/-! PROOF. The eleven rounds as a run of the sequencer, and HASH as such a run (41_hashchain.md R100, R105, R106). The state
after each round is given outright, with the two buffers by their roles, so the rounds are one induction; a permutation in
PERM keeps the mux off its fallback. -/

namespace Sys2Proof.Machine

/-! ### The buffers by their roles -/

/-- The block with `x` in the current buffer and `y` in the other, BUFB being the current one when `cur` is 1. -/
def withBuffers (cur : Bool) (x y : Vector Byte 64) (s : State) : State :=
  { s with bufa := if cur then y else x, bufb := if cur then x else y, cur := cur }

theorem currentBuffer_withBuffers (cur : Bool) (x y : Vector Byte 64) (s : State) :
    currentBuffer (withBuffers cur x y s) = x := by
  cases cur <;> rfl

/-- Round 0 writes BUFA, which becomes the current buffer. -/
theorem runRound_zero_withBuffers (f : List Byte → Vector Byte 64) {s : State} (h : s.r = 0) :
    runRound f s = withBuffers false (f s.msg.toList) s.bufb { s with r := 1, st := .round } :=
  runRound_zero f s h

/-- A later round writes the other buffer from the current one, and the roles swap. -/
theorem runRound_later_withBuffers (f : List Byte → Vector Byte 64) (cur : Bool) (x y : Vector Byte 64) {s : State}
    (h : s.r ≠ 0) :
    ∃ (r : Fin 11) (st : SeqState),
      runRound f (withBuffers cur x y s) = withBuffers (!cur) (f x.toList) x { s with r := r, st := st } ∧
        (s.r.val = 10 → r = s.r ∧ st = .dlatch) ∧ (s.r.val ≠ 10 → r.val = s.r.val + 1 ∧ st = .round) := by
  obtain ⟨t, ht, hframe, hfromA, hfromB, hnext⟩ := runRound_later f (withBuffers cur x y s) h
  refine ⟨t.r, t.st, ?_, hnext⟩
  rw [ht, hframe]
  cases cur
  · obtain ⟨hb, ha⟩ := hfromA rfl
    rw [hb, ha]
    rfl
  · obtain ⟨ha, hb⟩ := hfromB rfl
    rw [hb, ha]
    rfl

/-! ### The rounds -/

/-- The output of round `n` (41_hashchain.md R105 steps 2 and 3). -/
def roundOutput (perm : Vector Sel 11) (msg : Vector Byte 80) : Nat → Vector Byte 64
  | 0 => slotFn perm[0] msg.toList
  | n + 1 => slotFn perm[Fin.ofNat 11 (n + 1)] (roundOutput perm msg n).toList

/-- After the last round it is the output of the chain. -/
theorem roundOutput_ten (perm : Vector Sel 11) (msg : Vector Byte 80) : roundOutput perm msg 10 = chain perm msg := rfl

/-- What the other buffer holds after round `n`: the output before, and after round 0 what BUFB held. -/
def outputBefore (s : State) : Nat → Vector Byte 64
  | 0 => s.bufb
  | n + 1 => roundOutput s.perm s.msg n

/-- The block after round `n`, with R and ST as given. -/
def chained (n : Nat) (r : Fin 11) (st : SeqState) (s : State) : State :=
  withBuffers (decide (n % 2 = 1)) (roundOutput s.perm s.msg n) (outputBefore s n) { s with r := r, st := st }

theorem currentBuffer_chained (n : Nat) (r : Fin 11) (st : SeqState) (s : State) :
    currentBuffer (chained n r st s) = roundOutput s.perm s.msg n :=
  currentBuffer_withBuffers _ _ _ _

/-- The block with the digest of the message in DIGEST and the last two outputs in the buffers (41_hashchain.md R104 to
R106). -/
def hashed (s : State) : State :=
  { s with bufa := chain s.perm s.msg, bufb := chainBeforeLast s.perm s.msg, cur := false, r := 10,
           digest := chainDigest s.perm s.msg }

/-- After round 10 the roles are those of round 0; only DIGEST is not yet there. -/
theorem chained_ten (s : State) :
    chained 10 10 .dlatch s = { hashed s with digest := s.digest, st := .dlatch } := rfl

/-- DLATCH after round 10, in a HASH. -/
theorem execStDlatch_chained_ten {s : State} (hop : s.op = .hash) :
    execStDlatch (chained 10 10 .dlatch s) = .next (complete (hashed s)) := by
  have hdigest : currentDigest (chained 10 10 .dlatch s) = chainDigest s.perm s.msg := by
    rw [currentDigest, currentBuffer_chained, roundOutput_ten, chainDigest]
  rw [execStDlatch_hash (s := chained 10 10 .dlatch s) hop, hdigest, chained_ten]
  rfl

/-- Step ROUND with a permutation in PERM takes no fallback. -/
theorem execStRound_permValid {s : State} (hp : PermValid s.perm) :
    execStRound s = .next (runRound (slotFn s.perm[s.r]) s) := by
  rw [execStRound, roundBySel_inRange (permValid_slot hp s.r)]

section
variable {s : State} (hp : PermValid s.perm)
include hp

/-- Round 0 of the chain. -/
theorem execStRound_zero (hr : s.r = 0) : execStRound s = .next (chained 0 1 .round s) := by
  have hslot : s.perm[s.r] = s.perm[0] := congrArg (fun r : Fin 11 => s.perm[r]) hr
  rw [execStRound_permValid hp, runRound_zero_withBuffers _ hr, hslot]
  rfl

/-- The round after round `n`: R counts up to 10 and stays there, and after round 10 the chain goes to DLATCH. -/
theorem execStRound_chained {n : Nat} {r : Fin 11} (hr : r.val = n + 1) :
    ∃ (r' : Fin 11) (st : SeqState), execStRound (chained n r .round s) = .next (chained (n + 1) r' st s) ∧
      (n = 9 → r' = 10 ∧ st = .dlatch) ∧ (n ≠ 9 → r'.val = n + 2 ∧ st = .round) := by
  have hr0 : r ≠ 0 := fun h => by simp [h] at hr
  have hindex : Fin.ofNat 11 (n + 1) = r := Fin.ext (by rw [← hr]; exact Nat.mod_eq_of_lt r.isLt)
  have hslot : s.perm[Fin.ofNat 11 (n + 1)] = s.perm[r] := congrArg (fun k : Fin 11 => s.perm[k]) hindex
  obtain ⟨r', st, hround, hlast, hnext⟩ := runRound_later_withBuffers (slotFn s.perm[r]) (decide (n % 2 = 1))
    (roundOutput s.perm s.msg n) (outputBefore s n) (s := { s with r := r, st := .round }) hr0
  simp only [hr] at hlast hnext
  refine ⟨r', st, ?_, fun h => ?_, fun h => ?_⟩
  · have hroles : (!decide (n % 2 = 1)) = decide ((n + 1) % 2 = 1) := by
      rw [← decide_not, decide_eq_decide]
      omega
    have hchained : runRound (slotFn s.perm[r]) (chained n r .round s) = chained (n + 1) r' st s := by
      rw [chained, hround, chained, hroles, roundOutput, hslot]
      rfl
    exact (execStRound_permValid (s := chained n r .round s) hp).trans (congrArg _ hchained)
  · obtain ⟨hr', hst⟩ := hlast (by omega)
    exact ⟨hr'.trans (Fin.ext (by rw [hr, h]; rfl)), hst⟩
  · exact hnext (by omega)

/-- The rounds 0 to `n`, for each round but the last. -/
theorem busyRun_rounds {n : Nat} (hn : n ≤ 9) (hu : Undisturbed s) (hb : s.busy = true) (hst : s.st = .round)
    (hr : s.r = 0) : ∃ r : Fin 11, r.val = n + 1 ∧ BusyRun (n + 1) s (chained n r .round s) := by
  induction n with
  | zero => exact ⟨1, rfl, .turn hu hb hst (execStRound_zero hp hr) (.refl _)⟩
  | succ n ih =>
    obtain ⟨r, hrn, hrun⟩ := ih (by omega)
    obtain ⟨r', st, he, -, hnext⟩ := execStRound_chained hp hrn
    obtain ⟨hr', rfl⟩ := hnext (by omega)
    exact ⟨r', hr', hrun.trans (.turn (q := .round) (s := chained n r .round s) hu hb rfl he (.refl _))⟩

/-- The eleven rounds of the chain. -/
theorem busyRun_chain (hu : Undisturbed s) (hb : s.busy = true) (hst : s.st = .round) (hr : s.r = 0) :
    BusyRun 11 s (chained 10 10 .dlatch s) := by
  obtain ⟨r, hrn, hrun⟩ := busyRun_rounds hp (Nat.le_refl 9) hu hb hst hr
  obtain ⟨r', st, he, hlast, -⟩ := execStRound_chained hp hrn
  obtain ⟨rfl, rfl⟩ := hlast rfl
  exact hrun.trans (.turn (q := .round) (s := chained 9 r .round s) hu hb rfl he (.refl _))

end

/-! ### The order of the rounds -/

/-- A shuffle keeps a permutation, whatever the indexes. -/
theorem permValid_foldl_shuffleOnce (order : List (Fin 11)) {xp : DWord × Vector Sel 11} (h : PermValid xp.2) :
    PermValid (order.foldl shuffleOnce xp).2 := by
  induction order generalizing xp with
  | nil => exact h
  | cons i order ih => exact ih (permValid_swap h i (shufIndex (xorshift64 xp.1) i))

/-- A seed derives a permutation (40_permutation.md R88). -/
theorem permValid_deriveFromSeed (seed : Vector Byte 32) : PermValid (deriveFromSeed seed).2 :=
  permValid_foldl_shuffleOnce shuffleOrder permValid_identity

/-! ### The command -/

/-- The eleven rounds and DLATCH, in a HASH. -/
theorem busyRun_hash {s : State} (hp : PermValid s.perm) (hu : Undisturbed s) (hb : s.busy = true) (hst : s.st = .round)
    (hr : s.r = 0) (hop : s.op = .hash) : BusyRun 12 s (complete (hashed s)) :=
  (busyRun_chain hp hu hb hst hr).trans
    (.turn (q := .dlatch) (s := chained 10 10 .dlatch s) hu hb rfl (execStDlatch_chained_ten hop) (.refl _))

/-- Settles O25: thirteen steps of the generator, then eleven rounds and DLATCH. -/
theorem hashComputesDigest : Obligations.HashComputesDigest := by
  intro s hidle hu
  have hwhole := headerSeeded_whole (s := start .hash .conv s) (by simp)
  have hgenerator := busyRun_conv (s := start .hash .conv s) hu rfl rfl
  rw [hwhole, shufDone_hash rfl] at hgenerator
  obtain ⟨hrun, hbusy⟩ := hgenerator.trans (busyRun_hash (permValid_deriveFromSeed _) hu rfl rfl rfl rfl)
  refine ⟨_, _, acceptCmd_idle _ s hidle, hrun, ?_, rfl, rfl, hbusy⟩
  simp only [complete, hashed, derived, start, derivePermutation, hashMessage, hidle]

end Sys2Proof.Machine

/-! PROOF. Every step keeps all invariants (42_search.md R129, 43_comparator.md R156, 70_reset_and_hazards.md R210). The
permutation, the control state and the counters are kept already; what is new is what the block reports: the search
registers and LE. Coherence says which command is at which state, so a running block owes only the registers of a SEARCH
and LE at its state, and a completed one only its verdict. -/

namespace Sys2Proof.Machine

/-! ### What the block reports -/

/-- The search registers and LE, the two invariants about results. -/
abbrev Reports (s : State) : Prop := SearchInv s ∧ LeInv s

/-- The registers of a SEARCH whose sequencer is at `q` (42_search.md R129). -/
def SearchingAt (q : SeqState) (s : State) : Prop :=
  s.winNonce = 0 ∧ s.hashesDone = 0 ∧ s.nonceStart ≤ s.nonce ∧ (inPreamble q = true → s.nonce = s.nonceStart) ∧
    (inIteration q = true → s.nonce < s.nonceMax)

/-- At `q'` no more is asked of them than at `q`. -/
abbrev AsksNoMore (q q' : SeqState) : Prop :=
  (inPreamble q' = true → inPreamble q = true) ∧ (inIteration q' = true → inIteration q = true)

theorem SearchingAt.move {q q' : SeqState} {s : State} (h : SearchingAt q s) (hq : AsksNoMore q q') :
    SearchingAt q' s := by
  obtain ⟨hwin, hdone, hle, hstart, hmax⟩ := h
  exact ⟨hwin, hdone, hle, hstart ∘ hq.1, hmax ∘ hq.2⟩

/-- LOOPCHK lets the iteration in while NONCE is below NONCE_MAX, and asks nothing of the way out (42_search.md R122). -/
theorem SearchingAt.loopchk {s : State} (h : SearchingAt .loopchk s) :
    SearchingAt (if s.nonce < s.nonceMax ∧ s.cancel = false then .nwrite else .exitnf) s := by
  split
  next hcheck =>
    obtain ⟨hwin, hdone, hle, -, -⟩ := h
    exact ⟨hwin, hdone, hle, fun hpre => absurd hpre (by decide), fun _ => hcheck.1⟩
  next => exact h.move (by decide)

/-- NINC comes from an iteration, so NONCE is below NONCE_MAX and the increment does not wrap (42_search.md R129). -/
theorem SearchingAt.ninc {s : State} (h : SearchingAt .ninc s) :
    SearchingAt .loopchk { s with nonce := s.nonce + 1 } := by
  obtain ⟨hwin, hdone, hle, -, hmax⟩ := h
  have hlt : s.nonce < s.nonceMax := hmax rfl
  have hle' : s.nonceStart ≤ s.nonce + 1 := by bv_omega
  exact ⟨hwin, hdone, hle', fun hpre => absurd hpre (by decide), fun hiter => absurd hiter (by decide)⟩

/-! ### What they are of a running and of a completed command -/

section
variable {s : State} (h : Reports s)
include h

theorem Reports.searching (hb : s.busy = true) (hop : s.op = .search) : SearchingAt s.st s := by
  obtain ⟨⟨hsearch, -⟩, -⟩ := h
  exact hsearch hop hb

theorem Reports.le_running (hb : s.busy = true) : s.le = decide (s.st = .foundx) := by
  obtain ⟨-, hle, -⟩ := h
  exact hle hb

end

/-- A running command. -/
theorem reports_of_running {s : State} (hc : Coherent s) (hb : s.busy = true) (hle : s.le = decide (s.st = .foundx))
    (hsearch : s.op = .search → SearchingAt s.st s) : Reports s := by
  obtain ⟨-, -, hfound⟩ := hc.running hb
  have hother : s.op ≠ .search → s.st ≠ .foundx := fun hop hst =>
    hop (stateOfCommand_loop (by simp [hst]) hc.command)
  refine ⟨⟨fun hop _ => hsearch hop, fun hop _ => (hsearch hop).1⟩, fun _ => hle, fun _ hidle => ?_, fun _ => hfound,
    fun hop => ?_⟩
  · simp [hb] at hidle
  · simp [hle, hother fun e => hop (by simp [e])]

/-- An idle block: only the verdict of its last command is left. -/
theorem reports_of_idle {s : State} (hb : s.busy = false) (hwin : s.op = .search → s.found = false → s.winNonce = 0)
    (hverdict : s.op = .search → s.le = s.found) (hfound : s.op ≠ .search → s.found = false)
    (hle : s.op ∉ [.search, .compare] → s.le = false) : Reports s := by
  refine ⟨⟨fun _ hbusy => ?_, hwin⟩, fun hbusy => ?_, fun hop _ => hverdict hop, hfound, hle⟩
  all_goals simp [hb] at hbusy

/-- A completed command that found nothing. -/
theorem reports_of_completed {s : State} (hb : s.busy = false) (hfound : s.found = false)
    (hwin : s.op = .search → s.winNonce = 0) (hle : s.op ≠ .compare → s.le = false) : Reports s :=
  reports_of_idle hb (fun hop _ => hwin hop) (fun hop => by rw [hle (by simp [hop]), hfound]) (fun _ => hfound)
    fun hop => hle fun e => hop (by simp [e])

/-! ### What the shared operations leave of them -/

/-- The command, its verdict and the registers of a search are the same in both states. -/
def SameReports (s t : State) : Prop :=
  t.op = s.op ∧ t.found = s.found ∧ t.le = s.le ∧ t.nonceStart = s.nonceStart ∧ t.nonceMax = s.nonceMax ∧
    t.nonce = s.nonce ∧ t.winNonce = s.winNonce ∧ t.hashesDone = s.hashesDone

theorem SameReports.refl (s : State) : SameReports s s := ⟨rfl, rfl, rfl, rfl, rfl, rfl, rfl, rfl⟩

theorem SameReports.searchingAt {q : SeqState} {s t : State} (h : SameReports s t) (hs : SearchingAt q s) :
    SearchingAt q t := by
  obtain ⟨-, -, -, hstart, hmax, hnonce, hwin, hdone⟩ := h
  rwa [SearchingAt, hstart, hmax, hnonce, hwin, hdone]

/-- A round reports nothing, and the command runs on in the chain. -/
theorem roundBySel_sameReports (sel : Sel) (s : State) :
    SameReports s (roundBySel sel s) ∧ (roundBySel sel s).busy = s.busy ∧
      ((roundBySel sel s).st = .round ∨ (roundBySel sel s).st = .dlatch) := by
  by_cases h0 : s.r = 0
  · simp [roundBySel_zero sel h0, SameReports]
  · obtain ⟨t, ht, hframe, -, -, hlast, hnext⟩ := roundBySel_later sel h0
    have hst : t.st = .round ∨ t.st = .dlatch :=
      (em (s.r.val = 10)).symm.imp (fun h10 => (hnext h10).2) fun h10 => (hlast h10).2
    rw [ht]
    refine ⟨?_, ?_, hst⟩
    · rw [hframe]
      exact .refl s
    · rw [hframe]

/-! ### The steps of the sequencer -/

/-- In a SEARCH the target goes on to the header. -/
theorem execStTlatch_search {s : State} (hop : s.op = .search) :
    execStTlatch s = .next { s with et := effectiveTarget s.bench s.target, st := .conv } := by
  simp only [execStTlatch, hop]

/-- In a COMPARE it goes to the comparator. -/
theorem execStTlatch_compare {s : State} (hop : s.op = .compare) :
    execStTlatch s = .next { s with et := effectiveTarget s.bench s.target, st := .cmp1 } := by
  simp only [execStTlatch, hop]

section
variable {s t : State} (h : Reports s) (hc : Coherent s) (hb : s.busy = true)
include h hb

/-- Before FOUNDX a running command has LE at 0 (43_comparator.md R156). -/
theorem Reports.le_false (hst : s.st ≠ .foundx) : s.le = false := by
  simp [h.le_running hb, hst]

/-- A command that runs on to `q'` and reports nothing new. -/
theorem Reports.goesOn {q : SeqState} (q' : SeqState) (hst : s.st = q) (same : SameReports s t) (ht : Coherent t)
    (hbt : t.busy = true) (hst' : t.st = q') (hq : q ≠ .foundx) (hq' : q' ≠ .foundx)
    (hmove : s.op = .search → AsksNoMore q q') : Reports t := by
  have ⟨hop, _, hle, _⟩ := same
  subst hst hst'
  refine reports_of_running ht hbt (by simp [hle, h.le_false hb hq, hq']) fun e => same.searchingAt ?_
  exact (h.searching hb (hop ▸ e)).move (hmove (hop ▸ e))

theorem execStRound_reports (hst : s.st = .round) (ht : Coherent t) (he : execStRound s = .next t) : Reports t := by
  have same : SameReports s t ∧ t.busy = s.busy ∧ (t.st = .round ∨ t.st = .dlatch) := by
    obtain rfl := Host.Outcome.next.inj he
    exact roundBySel_sameReports _ s
  obtain ⟨same, hbt, hst' | hst'⟩ := same
  · exact h.goesOn hb .round hst same ht (hbt.trans hb) hst' (by decide) (by decide) fun _ => by decide
  · exact h.goesOn hb .dlatch hst same ht (hbt.trans hb) hst' (by decide) (by decide) fun _ => by decide

include hc

/-- A command other than SEARCH that completes and reports nothing new. -/
theorem Reports.completes (hst : s.st ≠ .foundx) (hop : s.op ≠ .search) (same : SameReports s t)
    (hbt : t.busy = false) : Reports t := by
  obtain ⟨hop', hfound', hle', -⟩ := same
  obtain ⟨-, -, hfound⟩ := hc.running hb
  exact reports_of_completed hbt (hfound'.trans hfound) (fun e => absurd (hop'.symm.trans e) hop)
    fun _ => hle'.trans (h.le_false hb hst)

/-- The end of the shuffle. -/
theorem reports_shufDone {u : State} (hst : s.st = .shuf) (same : SameReports s u) (hbu : u.busy = true)
    (hstu : u.st = .shuf) (ht : Coherent (shufDone u)) : Reports (shufDone u) := by
  have ⟨hopu, _⟩ := same
  obtain ⟨hop, e⟩ | ⟨hop, e⟩ | ⟨hop, e⟩ | ⟨-, e⟩ := shufDone_cases u <;> rw [e] at ht ⊢
  · refine h.completes hc hb (by simp [hst]) (fun e => ?_) same rfl
    simp [hopu, e] at hop
  · exact h.goesOn hb .round hst same ht hbu rfl (by decide) (by decide) fun e => by simp [hopu, e] at hop
  · exact h.goesOn hb .loopchk hst same ht hbu rfl (by decide) (by decide) fun _ => by decide
  · exact h.goesOn hb .shuf hst same ht hbu hstu (by decide) (by decide) fun _ => by decide

/-- The end of a comparison: LE is the verdict, 1 exactly on the way to FOUNDX. -/
theorem reports_compareDone {q : SeqState} {pass : Bool} (hst : s.st ∈ [.cmp1, .cmp2]) (hq : q ∈ [.ninc, .foundx])
    (hpass : pass = decide (q = .foundx)) (ht : Coherent (compareDone q { s with le := pass })) :
    Reports (compareDone q { s with le := pass }) := by
  have hmove : AsksNoMore s.st q := by
    revert hst hq
    cases s.st <;> cases q <;> decide
  have hcmp : s.st ∈ [.tlatch, .cmp1, .cmp2] := List.mem_cons_of_mem _ hst
  obtain ⟨-, -, hfound⟩ := hc.running hb
  obtain ⟨hop, e⟩ | ⟨hop, e⟩ | ⟨hs, hcmp', -⟩ := compareDone_cases q { s with le := pass }
  · rw [e] at ht ⊢
    exact reports_of_running ht hb hpass fun _ => (h.searching hb hop).move hmove
  · rw [e]
    exact reports_of_completed rfl hfound (fun e => absurd (hop.symm.trans e) (by decide)) fun e => absurd hop e
  · exact absurd (stateOfCommand_comparator hcmp hc.command) (not_or.mpr ⟨hs, hcmp'⟩)

theorem execStTlatch_reports (hst : s.st = .tlatch) (ht : Coherent t) (he : execStTlatch s = .next t) : Reports t := by
  obtain hop | hop := stateOfCommand_comparator (by simp [hst]) hc.command
  · obtain rfl := Host.Outcome.next.inj ((execStTlatch_search hop).symm.trans he)
    exact h.goesOn hb .conv hst (by simp [SameReports]) ht hb rfl (by decide) (by decide) fun _ => by decide
  · obtain rfl := Host.Outcome.next.inj ((execStTlatch_compare hop).symm.trans he)
    exact h.goesOn hb .cmp1 hst (by simp [SameReports]) ht hb rfl (by decide) (by decide) fun e => by simp [hop] at e

theorem execStShuf_reports (hst : s.st = .shuf) (ht : Coherent t) (he : execStShuf s = .next t) : Reports t := by
  obtain ⟨-, e⟩ | ⟨j, u, -, hu, ⟨-, e⟩ | ⟨-, e⟩⟩ := execStShuf_cases s
  all_goals obtain rfl := Host.Outcome.next.inj (e.symm.trans he)
  · exact h
  all_goals have same : SameReports s u := by simp [SameReports, hu]
  all_goals have hbu : u.busy = true := by simp [hu, hb]
  · exact reports_shufDone h hc hb hst same hbu (by simp [hu, hst]) ht
  · exact h.goesOn hb .shuf hst same ht hbu rfl (by decide) (by decide) fun _ => by decide

theorem execStDlatch_reports (hst : s.st = .dlatch) (ht : Coherent t) (he : execStDlatch s = .next t) : Reports t := by
  obtain hop | hop := stateOfCommand_chain (by simp [hst]) hc.command
  · obtain rfl := Host.Outcome.next.inj ((execStDlatch_hash hop).symm.trans he)
    exact h.completes hc hb (by simp [hst]) (by simp [hop]) (by simp [SameReports]) rfl
  · obtain rfl := Host.Outcome.next.inj ((execStDlatch_search hop).symm.trans he)
    exact h.goesOn hb .cmp1 hst (by simp [SameReports]) ht hb rfl (by decide) (by decide) fun _ => by decide

theorem execStCmp1_reports (hst : s.st = .cmp1) (ht : Coherent t) (he : execStCmp1 s = .next t) : Reports t := by
  unfold execStCmp1 at he
  split at he <;> obtain rfl := Host.Outcome.next.inj he
  · exact h.goesOn hb .cmp2 hst (.refl s) ht hb rfl (by decide) (by decide) fun _ => by decide
  · exact reports_compareDone h hc hb (by simp [hst]) (by simp) (by simp) ht

theorem execStCmp2_reports (hst : s.st = .cmp2) (ht : Coherent t) (he : execStCmp2 s = .next t) : Reports t := by
  obtain rfl := Host.Outcome.next.inj he
  refine reports_compareDone h hc hb (by simp [hst]) ?_ ?_ ht
  all_goals cases fullCompare s.digest s.et <;> simp

theorem exec_stateInstr_reports (he : exec (stateInstr s.st) s = .next t) : Reports t := by
  have ht : Coherent t := exec_stateInstr_coherent hc hb he
  have hcmd := hc.command
  obtain ⟨-, -, hfound⟩ := hc.running hb
  cases hst : s.st <;> rw [hst] at he hcmd
  case tlatch => exact execStTlatch_reports h hc hb hst ht he
  case shuf => exact execStShuf_reports h hc hb hst ht he
  case round => exact execStRound_reports h hb hst ht he
  case dlatch => exact execStDlatch_reports h hc hb hst ht he
  case cmp1 => exact execStCmp1_reports h hc hb hst ht he
  case cmp2 => exact execStCmp2_reports h hc hb hst ht he
  all_goals obtain rfl := Host.Outcome.next.inj he
  case idle => exact h
  case conv =>
    exact h.goesOn hb .seedgen hst (by simp [SameReports]) ht hb rfl (by decide) (by decide) fun _ => by decide
  case seedgen =>
    exact h.goesOn hb .pinit hst (by simp [SameReports]) ht hb rfl (by decide) (by decide) fun _ => by decide
  case pinit =>
    exact h.goesOn hb .shuf hst (by simp [SameReports]) ht hb rfl (by decide) (by decide) fun _ => by decide
  case nwrite =>
    exact h.goesOn hb .round hst (by simp [SameReports]) ht hb rfl (by decide) (by decide) fun _ => by decide
  all_goals
    have hop : s.op = .search := stateOfCommand_loop (by simp) hcmd
    have hs := hst ▸ h.searching hb hop
  case loopchk =>
    refine reports_of_running ht hb ?_ fun _ => hs.loopchk
    simp only [h.le_false hb (by simp [hst])]
    split <;> rfl
  case ninc => exact reports_of_running ht hb (h.le_false hb (by simp [hst])) fun _ => hs.ninc
  case foundx =>
    refine reports_of_idle rfl (fun _ hf => absurd hf (by simp)) (fun _ => ?_) (absurd hop) fun e => ?_
    · simp [h.le_running hb, hst]
    · simp [hop] at e
  case exitnf => exact reports_of_completed rfl rfl (fun _ => hs.1) fun _ => h.le_false hb (by simp [hst])

end

/-! ### A step of the machine -/

theorem seqStep_reports {s t : State} (h : Reports s) (hc : Coherent s) (he : seqStep s = .next t) : Reports t := by
  cases hb : s.busy
  · rw [seqStep_idle hb] at he
    exact Host.Outcome.next.inj he ▸ h
  · rw [seqStep_busy hb] at he
    exact exec_stateInstr_reports h hc hb he

theorem reports_resetBlock (s : State) : Reports (resetBlock s) :=
  ⟨(by decide : SearchInv State.reset), (by decide : LeInv State.reset)⟩

theorem commandOutcome_reports {s t : State} (h : Reports s) (hc : Coherent s) (ho : CommandOutcome s t) :
    Reports t := by
  have ht : Coherent t := commandOutcome_coherent hc ho
  cases ho with
  | refused _ | nop _ | clrf _ | reserved _ => exact h
  | sreset _ => exact reports_resetBlock s
  | run idle op q row =>
    have hrow : op ≠ .search ∧ q ≠ .foundx := by
      revert row
      cases op <;> cases q <;> decide
    obtain ⟨hop, hq⟩ := hrow
    exact reports_of_running ht rfl (by simp [hq]) fun e => absurd e hop
  | search idle =>
    have hs : SearchingAt .tlatch
        { start .search .tlatch s with nonce := s.nonceStart, winNonce := 0, hashesDone := 0 } :=
      ⟨rfl, rfl, BitVec.le_refl _, fun _ => rfl, fun hq => absurd hq (by decide)⟩
    exact reports_of_running ht rfl rfl fun _ => hs

/-- The host's registers hold no result, and it writes them only while the block is idle. -/
theorem setReg_reports {s : State} (h : Reports s) (hb : s.busy = false) (reg : Reg) (v : Word) :
    Reports (setReg reg v s) := by
  obtain ⟨⟨-, hwin⟩, -, hverdict, hfound, hle⟩ := h
  rw [setReg_frame]
  exact reports_of_idle hb hwin (fun hop => hverdict hop hb) hfound hle

theorem stepOutcome_reports {s t : State} (h : Reports s) (hc : Coherent s) (ho : StepOutcome s t) : Reports t := by
  cases ho with
  | quiet _ _ _ | refusedWrite _ _ => exact h
  | held _ _ _ _ => exact reports_resetBlock s
  | turn _ _ _ run => exact seqStep_reports (s := { s with sched := s.sched.tail }) h hc run
  | command _ u run =>
    have hu : Reports u := commandOutcome_reports (s := { s with sched := s.sched.tail }) h hc run
    exact hu
  | takenWrite _ idle reg _ v => exact setReg_reports (s := { s with sched := s.sched.tail }) h idle reg v

/-- A CMD write moves no pin. -/
theorem commandOutcome_rst {s t : State} (ho : CommandOutcome s t) : t.rst = s.rst := by
  cases ho <;> rfl

/-- With `rst` released at the end of a step the block owes nothing; else it was held (70_reset_and_hazards.md R210). -/
theorem stepOutcome_resetInv {s t : State} (ho : StepOutcome s t) : ResetInv t := by
  have released {u : State} (hr : u.rst = false) : ResetInv u := fun hu => absurd (hr.symm.trans hu) Bool.false_ne_true
  cases ho with
  | quiet hr _ _ | refusedWrite hr _ => exact released hr
  | held _ _ _ _ => exact fun _ => rfl
  | turn hr _ _ run =>
    obtain ⟨-, -, -, -, -, -, -, hrst, -⟩ := seqStep_sameHostSide run
    exact released (hrst.trans hr)
  | command hr u run => exact released (u := { u with resp := .ack }) ((commandOutcome_rst run).trans hr)
  | takenWrite hr _ reg _ v =>
    rw [setReg_frame]
    exact released hr

/-- Settles O57: the permutation by O55, the control state and the counters by O56, and of every outcome of a step the
reports and the block held at reset. -/
theorem stepKeepsInvariants : Obligations.StepKeepsInvariants := by
  intro s t h hstep
  have ho : StepOutcome s t := step_outcome hstep
  obtain ⟨hcontrol, hchain⟩ := controlStaysCoherent s t h.control h.chain hstep
  obtain ⟨hsearch, hle⟩ := stepOutcome_reports ⟨h.search, h.le⟩ ⟨h.control, h.chain⟩ ho
  exact ⟨permutationStaysValid s t h.perm hstep, hcontrol, hchain, hsearch, hle, stepOutcome_resetInv ho⟩

end Sys2Proof.Machine

/-! PROOF. The steps of the nonce search one by one (42_search.md R122 to R127), with the two work counts as numbers. -/

namespace Sys2Proof.Machine

/-! ### LOOPCHK -/

/-- The loop goes on while NONCE is below NONCE_MAX and `cancel` reads 0. -/
theorem execStLoopchk_enter {s : State} (hlt : s.nonce.toNat < s.nonceMax.toNat) (hcancel : s.cancel = false) :
    execStLoopchk s = .next { s with st := .nwrite } := by
  rw [execStLoopchk, if_pos ⟨BitVec.lt_def.mpr hlt, hcancel⟩]

/-- Else it ends: NONCE_MAX itself is never attempted. -/
theorem execStLoopchk_exit {s : State} (hend : s.nonceMax.toNat ≤ s.nonce.toNat ∨ s.cancel = true) :
    execStLoopchk s = .next { s with st := .exitnf } := by
  rw [execStLoopchk, if_neg]
  rintro ⟨hlt, hcancel⟩
  obtain hge | hset := hend
  · exact absurd (BitVec.lt_def.mp hlt) (Nat.not_lt.mpr hge)
  · simp [hcancel] at hset

/-- Settles O26: the two ways out of LOOPCHK. -/
theorem loopchkTestsRangeAndCancel : Obligations.LoopchkTestsRangeAndCancel :=
  fun _ => ⟨fun ⟨hlt, hcancel⟩ => execStLoopchk_enter hlt hcancel, execStLoopchk_exit⟩

/-! ### NWRITE and NINC -/

/-- A byte of the message inside the word that NWRITE writes, as a number. -/
theorem setWordAt_byte {n : Nat} (buf : Vector Byte n) (a : Nat) (v : Word) (j : Fin 4) (h : a + j.val < n) :
    (setWordAt buf a v)[a + j.val].toNat = v.toNat / 2 ^ (8 * (3 - j.val)) % 2 ^ 8 := by
  rw [setWordAt_get, if_pos (by omega), be32Byte_toNat, Nat.add_sub_cancel_left]

/-- Settles O27: the four bytes of the word at 76, and no byte below it. -/
theorem nwriteStoresNonce : Obligations.NwriteStoresNonce := by
  intro s
  have hbyte (j : Fin 4) := setWordAt_byte s.msg 76 s.nonce j (by omega)
  have htop : s.nonce.toNat / 2 ^ 24 % 2 ^ 8 = s.nonce.toNat / 2 ^ 24 := by
    have := s.nonce.isLt
    omega
  refine ⟨_, rfl, rfl, (hbyte 0).trans htop, hbyte 1, hbyte 2, (hbyte 3).trans ?_, fun b hb => ?_⟩
  · simp
  · exact (setWordAt_get s.msg 76 s.nonce b.val b.isLt).trans (if_neg (by omega))

/-- Settles O28: the increment is that of a 32-bit word. -/
theorem nincIncrementsNonce : Obligations.NincIncrementsNonce :=
  fun s => ⟨_, rfl, rfl, BitVec.toNat_add s.nonce 1⟩

/-! ### The exits -/

/-- The difference of two 32-bit words on 64 bits, as a number (42_search.md R125). -/
theorem hashesFound_toNat (nonce first : Word) :
    (hashesFound nonce first).toNat = (nonce.toNat + (2 ^ 32 - first.toNat)) % 2 ^ 32 := by
  rw [hashesFound, BitVec.toNat_setWidth, BitVec.toNat_sub]
  omega

/-- The count of a failing exit is one more, added on 64 bits, where it does not wrap (42_search.md R127). -/
theorem hashesNotFound_toNat (nonce first : Word) :
    (hashesNotFound nonce first).toNat = (nonce.toNat + (2 ^ 32 - first.toNat)) % 2 ^ 32 + 1 := by
  have hadd : (hashesNotFound nonce first).toNat = ((hashesFound nonce first).toNat + 1) % 2 ^ 64 :=
    BitVec.toNat_add (hashesFound nonce first) 1
  rw [hadd, hashesFound_toNat]
  omega

/-- Without a wrap the difference is that of the numbers (42_search.md R129). -/
theorem workCount_of_le {nonce first : Word} (h : first.toNat ≤ nonce.toNat) :
    (nonce.toNat + (2 ^ 32 - first.toNat)) % 2 ^ 32 = nonce.toNat - first.toNat := by
  have := nonce.isLt
  omega

/-- Settles O29: the difference, zero-extended. -/
theorem foundxReportsFirstMatch : Obligations.FoundxReportsFirstMatch :=
  fun s => ⟨_, rfl, rfl, hashesFound_toNat s.nonce s.nonceStart⟩

/-- Settles O30: the difference, zero-extended, plus 1. -/
theorem exitnfReportsExhaustion : Obligations.ExitnfReportsExhaustion :=
  fun s => ⟨_, rfl, rfl, hashesNotFound_toNat s.nonce s.nonceStart⟩

end Sys2Proof.Machine

/-! PROOF. The two tiers of the comparator are the one comparison of the two numbers (43_comparator.md R151 to R154): both
numbers are their eight words in base 2^32, most significant first, and such numbers compare by the first word that
differs. -/

namespace Sys2Proof.Machine

/-! ### Numbers as words -/

/-- The number that words on the right of `n` make in base 2^32. -/
def appendWords (n : Nat) (l : List Word) : Nat := l.foldl (fun n w => n * 2 ^ 32 + w.toNat) n

theorem appendWords_cons (n : Nat) (w : Word) (l : List Word) :
    appendWords n (w :: l) = appendWords (n * 2 ^ 32 + w.toNat) l := rfl

/-- As many words do not make up for a smaller number on their left. -/
theorem appendWords_lt {l l' : List Word} (hlen : l.length = l'.length) {m n : Nat} (h : m < n) :
    appendWords m l < appendWords n l' := by
  induction l generalizing l' m n with
  | nil =>
    obtain rfl := List.length_eq_zero_iff.mp hlen.symm
    exact h
  | cons w l ih =>
    cases l' with
    | nil => cases hlen
    | cons w' l' =>
      rw [appendWords_cons, appendWords_cons]
      have hw := w.isLt
      exact ih (Nat.succ.inj hlen) (by omega)

/-- The comparison word by word is the comparison of the numbers. -/
theorem leWords_eq (l : List (Word × Word)) (n : Nat) :
    leWords l = decide (appendWords n (l.map Prod.fst) ≤ appendWords n (l.map Prod.snd)) := by
  induction l generalizing n with
  | nil => simp [leWords, appendWords]
  | cons p l ih =>
    obtain ⟨d, t⟩ := p
    have hlen : (l.map Prod.fst).length = (l.map Prod.snd).length := by simp
    simp only [leWords, List.map_cons, appendWords_cons, BitVec.lt_def]
    obtain hlt | heq | hgt := Nat.lt_trichotomy d.toNat t.toNat
    · have hless := appendWords_lt hlen (Nat.add_lt_add_left hlt (n * 2 ^ 32))
      rw [if_pos hlt, eq_comm, decide_eq_true hless.le]
    · rw [if_neg (by omega), if_neg (by omega), heq, ih]
    · have hmore := appendWords_lt hlen.symm (Nat.add_lt_add_left hgt (n * 2 ^ 32))
      rw [if_neg (by omega), if_pos hgt, eq_comm, decide_eq_false (Nat.not_le.mpr hmore)]

/-! ### The digest and the target as words -/

theorem toList_eq_ofFn {α : Type} {n : Nat} (v : Vector α n) : v.toList = List.ofFn fun i : Fin n => v[i] :=
  List.ext_getElem (by simp) fun i _ _ => by simp

/-- Four bytes on the right of `n` are a big-endian word on it. -/
theorem foldBytes_four (n : Nat) (b0 b1 b2 b3 : Byte) :
    [b0, b1, b2, b3].foldl (fun n b => n * 256 + b.toNat) n = n * 2 ^ 32 + (be32 b0 b1 b2 b3).toNat := by
  rw [be32_toNat]
  simp only [List.foldl_cons, List.foldl_nil]
  omega

/-- `D256` is the digest's eight big-endian words (20_memory.md R46). -/
theorem digestNumber_eq (digest : Vector Byte 32) :
    digestNumber digest = appendWords 0 (List.ofFn fun j : Fin 8 => dw digest j) := by
  have hbytes : digest.toList = (List.ofFn fun j : Fin 8 =>
      [digest[4 * j.val], digest[4 * j.val + 1], digest[4 * j.val + 2], digest[4 * j.val + 3]]).flatten := by
    rw [toList_eq_ofFn, List.ofFn_mul' (m := 4) (n := 8)]
    simp [List.ofFn_succ]
  simp only [digestNumber, hbytes, List.foldl_flatten, appendWords, List.ofFn_eq_map, List.foldl_map, foldBytes_four]
  rfl

/-- `T256` is the target's eight words (20_memory.md R45). -/
theorem targetNumber_eq (et : Vector Word 8) :
    targetNumber et = appendWords 0 (List.ofFn fun j : Fin 8 => et[j]) := by
  rw [targetNumber, toList_eq_ofFn, appendWords]

/-! ### The two tiers -/

/-- CMP2 decides by the numbers (43_comparator.md R153). -/
theorem fullCompare_eq_accepted (digest : Vector Byte 32) (et : Vector Word 8) :
    fullCompare digest et = accepted digest et := by
  rw [fullCompare, leWords_eq _ 0, accepted, digestNumber_eq, targetNumber_eq, List.map_ofFn, List.map_ofFn]
  rfl

/-- What CMP2 accepts, CMP1 lets through (43_comparator.md R154). -/
theorem preCheck_of_fullCompare {digest : Vector Byte 32} {et : Vector Word 8} (h : fullCompare digest et = true) :
    preCheck digest et = true := by
  rw [fullCompare, List.ofFn_succ, leWords] at h
  rw [preCheck, decide_eq_true_eq]
  split at h
  next hlt => exact BitVec.le_of_lt hlt
  next =>
    split at h
    next => cases h
    next hge => exact BitVec.not_lt.mp hge

end Sys2Proof.Machine

/-! PROOF. SEARCH as a run of the sequencer (42_search.md R120, R128 to R131). The preamble leads to LOOPCHK; one iteration
is the attempt of one nonce, and a failing one leads back to LOOPCHK with nothing changed that the next attempt reads, so
the failing attempts are one induction. What the search finds is then the end of one run or of the other. -/

namespace Sys2Proof.Machine

/-! ### The message with a nonce -/

/-- A write of a word replaces the last write of it. -/
theorem setWordAt_setWordAt {n : Nat} (buf : Vector Byte n) (a : Nat) (v w : Word) :
    setWordAt (setWordAt buf a v) a w = setWordAt buf a w := by
  refine Vector.ext fun b hb => ?_
  simp only [setWordAt_get]
  split <;> rfl

/-- The nonce after nineteen header words is the header with the nonce in its twentieth word (42_search.md R128). -/
theorem setWordAt_serialise (hdr : Vector Word 20) (msg : Vector Byte 80) (nonce : Word) :
    setWordAt (serialise 19 hdr msg) 76 nonce = headerBytes (hdr.set 19 nonce) := by
  refine Vector.ext fun b hb => ?_
  have hheader : (headerBytes (hdr.set 19 nonce))[b] = be32Byte (hdr.set 19 nonce)[b / 4] (b % 4) := by
    simp [headerBytes]
  rw [hheader, setWordAt_get, serialise_get]
  by_cases hlast : 76 ≤ b
  · obtain ⟨j, rfl⟩ := Nat.exists_eq_add_of_le hlast
    have hword : (76 + j) / 4 = 19 := by omega
    have hbyte : (76 + j) % 4 = j := by omega
    simp [hb, hword, hbyte]
  · have hword : b / 4 < 19 := by omega
    rw [if_neg (by omega), if_pos hword, Vector.getElem_set_ne _ _ (by omega)]

/-- The nonce is no part of the previous hash (30_encoding.md R68). -/
theorem previousHash_setWordAt (msg : Vector Byte 80) (nonce : Word) :
    previousHash (setWordAt msg 76 nonce) = previousHash msg := by
  refine Vector.ext fun b hb => ?_
  rw [previousHash, previousHash, window_get, window_get, setWordAt_get, if_neg (by omega)]

/-! ### The preamble -/

/-- The block with a SEARCH accepted (42_search.md R120). -/
def searchStarted (s : State) : State :=
  { start .search .tlatch s with nonce := s.nonceStart, winNonce := 0, hashesDone := 0 }

/-- The block at LOOPCHK after the preamble: the target latched, nineteen words of the header converted and the
permutation derived from them (42_search.md R120). -/
def searchEntered (s : State) : State :=
  let ph := previousHash (serialise 19 s.hdr s.msg)
  { searchStarted s with
    et := effectiveTarget s.bench s.target, msg := serialise 19 s.hdr s.msg, sb := Config.SHA256 ph,
    prng := (deriveFromSeed (Config.SHA256 ph)).1, perm := derivePermutation ph, i := 0, st := .loopchk }

/-- TLATCH, then the generator. -/
theorem busyRun_preamble {s : State} (hu : Undisturbed s) : BusyRun 14 (searchStarted s) (searchEntered s) := by
  have hgenerator := busyRun_conv
    (s := { searchStarted s with et := effectiveTarget s.bench s.target, st := .conv }) hu rfl rfl
  rw [shufDone_search rfl] at hgenerator
  exact .turn (q := .tlatch) hu rfl rfl (execStTlatch_search (s := searchStarted s) rfl) hgenerator

/-! ### The attempt of a nonce -/

/-- The digest that an attempt of a nonce computes in the loop. -/
def attemptDigest (s : State) (nonce : Word) : Vector Byte 32 := chainDigest s.perm (setWordAt s.msg 76 nonce)

/-- Whether the comparator accepts it. -/
def attemptPasses (s : State) (nonce : Word) : Bool := accepted (attemptDigest s nonce) s.et

/-- From the preamble it is the digest of the search (42_search.md R128). -/
theorem attemptDigest_searchEntered (s : State) (nonce : Word) :
    attemptDigest (searchEntered s) nonce = nonceDigest s.hdr nonce := by
  rw [nonceDigest, hashMessage, ← setWordAt_serialise s.hdr s.msg, previousHash_setWordAt]
  rfl

theorem attemptPasses_searchEntered (s : State) (nonce : Word) :
    attemptPasses (searchEntered s) nonce = noncePasses s nonce := by
  rw [attemptPasses, attemptDigest_searchEntered]
  rfl

/-- A SEARCH that is not cancelled stands at LOOPCHK and has found nothing. -/
structure AtLoop (s : State) : Prop where
  undisturbed : Undisturbed s
  cancel : s.cancel = false
  busy : s.busy = true
  op : s.op = .search
  st : s.st = .loopchk
  le : s.le = false
  perm : PermValid s.perm

theorem atLoop_searchEntered {s : State} (hu : Undisturbed s) (hcancel : s.cancel = false) : AtLoop (searchEntered s) := by
  obtain ⟨hsched, hrst⟩ := hu
  rw [searchEntered]
  exact ⟨⟨hsched, hrst⟩, hcancel, rfl, rfl, rfl, rfl, permValid_deriveFromSeed _⟩

/-- DLATCH after round 10, in a SEARCH. -/
theorem execStDlatch_chained_ten_search {s : State} (hop : s.op = .search) :
    execStDlatch (chained 10 10 .dlatch s) = .next { hashed s with st := .cmp1 } := by
  have hdigest : currentDigest (chained 10 10 .dlatch s) = chainDigest s.perm s.msg := by
    rw [currentDigest, currentBuffer_chained, roundOutput_ten, chainDigest]
  rw [execStDlatch_search (s := chained 10 10 .dlatch s) hop, hdigest, chained_ten]
  rfl

/-- The eleven rounds and DLATCH, in a SEARCH. -/
theorem busyRun_digest {s : State} (hp : PermValid s.perm) (hu : Undisturbed s) (hb : s.busy = true)
    (hst : s.st = .round) (hr : s.r = 0) (hop : s.op = .search) : BusyRun 12 s { hashed s with st := .cmp1 } :=
  (busyRun_chain hp hu hb hst hr).trans
    (.turn (q := .dlatch) (s := chained 10 10 .dlatch s) hu hb rfl (execStDlatch_chained_ten_search hop) (.refl _))

/-- LOOPCHK, NWRITE, the rounds and DLATCH: the digest of NONCE is there for the comparator. -/
theorem busyRun_attempt_frame {s : State} (h : AtLoop s) (hlt : s.nonce.toNat < s.nonceMax.toNat) :
    ∃ t, BusyRun 14 s t ∧
      t = { s with msg := setWordAt s.msg 76 s.nonce, bufa := t.bufa, bufb := t.bufb, cur := t.cur, r := t.r,
                   digest := attemptDigest s s.nonce, st := .cmp1 } := by
  have ⟨hsched, hrst⟩ := h.undisturbed
  have hdigest := busyRun_digest (s := { s with msg := setWordAt s.msg 76 s.nonce, r := 0, st := .round }) h.perm
    ⟨hsched, hrst⟩ h.busy rfl rfl h.op
  have hnwrite := BusyRun.turn (q := .nwrite) (s := { s with st := .nwrite }) ⟨hsched, hrst⟩ h.busy rfl rfl hdigest
  have hloopchk := BusyRun.turn h.undisturbed h.busy h.st (execStLoopchk_enter hlt h.cancel) hnwrite
  refine ⟨_, hloopchk, ?_⟩
  simp only [hashed, attemptDigest]

/-- The comparator finds the search as it was, and its verdict is that of the attempt. -/
theorem busyRun_attempt {s : State} (h : AtLoop s) (hlt : s.nonce.toNat < s.nonceMax.toNat) :
    ∃ t, BusyRun 14 s t ∧ Undisturbed t ∧ t.busy = true ∧ t.op = .search ∧ t.st = .cmp1 ∧
      accepted t.digest t.et = attemptPasses s s.nonce ∧
      t = { s with msg := setWordAt s.msg 76 s.nonce, bufa := t.bufa, bufb := t.bufb, cur := t.cur, r := t.r,
                   digest := attemptDigest s s.nonce, st := .cmp1 } := by
  have ⟨hsched, hrst⟩ := h.undisturbed
  obtain ⟨t, hrun, ht⟩ := busyRun_attempt_frame h hlt
  refine ⟨t, hrun, ?_, ?_, ?_, ?_, ?_, ht⟩
  all_goals rw [ht]
  · exact ⟨hsched, hrst⟩
  · exact h.busy
  · exact h.op
  · rfl

/-! ### The verdict on a digest -/

section
variable {s : State} (hop : s.op = .search)
include hop

/-- CMP1, when the high word is too great. -/
theorem execStCmp1_reject (hpre : preCheck s.digest s.et = false) :
    execStCmp1 s = .next { s with le := false, st := .ninc } := by
  simp only [execStCmp1, hpre, compareDone, hop, Bool.false_eq_true, if_false]

/-- CMP2. -/
theorem execStCmp2_search {pass : Bool} (hpass : accepted s.digest s.et = pass) :
    execStCmp2 s = .next { s with le := pass, st := if pass then .foundx else .ninc } := by
  simp only [execStCmp2, fullCompare_eq_accepted, hpass, compareDone, hop]

variable (hu : Undisturbed s) (hb : s.busy = true) (hst : s.st = .cmp1)
include hu hb hst

/-- A digest that the pre-check lets through is judged by the full comparison. -/
theorem busyRun_fullCompare {pass : Bool} (hpre : preCheck s.digest s.et = true)
    (hpass : accepted s.digest s.et = pass) :
    BusyRun 2 s { s with le := pass, st := if pass then .foundx else .ninc } :=
  .turn hu hb hst (if_pos hpre)
    (.turn (q := .cmp2) hu hb rfl (execStCmp2_search (s := { s with st := .cmp2 }) hop hpass) (.refl _))

/-- An accepted digest goes through both tiers. -/
theorem busyRun_accept (hpass : accepted s.digest s.et = true) : BusyRun 2 s { s with le := true, st := .foundx } :=
  busyRun_fullCompare hop hu hb hst (preCheck_of_fullCompare ((fullCompare_eq_accepted _ _).trans hpass)) hpass

/-- A rejected one may fail at the first. -/
theorem busyRun_reject (hpass : accepted s.digest s.et = false) :
    ∃ k, k ≤ 2 ∧ BusyRun k s { s with le := false, st := .ninc } := by
  cases hpre : preCheck s.digest s.et
  · exact ⟨1, by decide, .turn hu hb hst (execStCmp1_reject hop hpre) (.refl _)⟩
  · exact ⟨2, by decide, busyRun_fullCompare hop hu hb hst hpre hpass⟩

end

/-! ### One iteration -/

/-- What failing attempts leave: all but the working registers, and of the message all but the nonce's word. -/
def AfterMisses (s t : State) : Prop :=
  t = { s with msg := t.msg, bufa := t.bufa, bufb := t.bufb, cur := t.cur, r := t.r, digest := t.digest,
               nonce := t.nonce } ∧
    ∀ nonce, setWordAt t.msg 76 nonce = setWordAt s.msg 76 nonce

theorem AfterMisses.refl (s : State) : AfterMisses s s := ⟨rfl, fun _ => rfl⟩

theorem AfterMisses.trans {s t u : State} (h₁ : AfterMisses s t) (h₂ : AfterMisses t u) : AfterMisses s u := by
  obtain ⟨hframe₁, hmsg₁⟩ := h₁
  obtain ⟨hframe₂, hmsg₂⟩ := h₂
  refine ⟨?_, fun nonce => (hmsg₂ nonce).trans (hmsg₁ nonce)⟩
  rw [hframe₂, hframe₁]

/-- The next attempt finds all it needs. -/
theorem AfterMisses.atLoop {s t : State} (hafter : AfterMisses s t) (h : AtLoop s) : AtLoop t := by
  obtain ⟨hframe, -⟩ := hafter
  have ⟨hsched, hrst⟩ := h.undisturbed
  rw [hframe]
  exact ⟨⟨hsched, hrst⟩, h.cancel, h.busy, h.op, h.st, h.le, h.perm⟩

/-- The attempts still to come have the digests and the target they had. -/
theorem AfterMisses.attemptDigest {s t : State} (hafter : AfterMisses s t) (nonce : Word) :
    attemptDigest t nonce = attemptDigest s nonce := by
  obtain ⟨hframe, hmsg⟩ := hafter
  have hperm : t.perm = s.perm := by rw [hframe]
  rw [Machine.attemptDigest, hmsg, hperm, Machine.attemptDigest]

theorem AfterMisses.attemptPasses {s t : State} (hafter : AfterMisses s t) (nonce : Word) :
    attemptPasses t nonce = attemptPasses s nonce := by
  have ⟨hframe, _⟩ := hafter
  have het : t.et = s.et := by rw [hframe]
  rw [Machine.attemptPasses, hafter.attemptDigest, het, Machine.attemptPasses]

section
variable {s : State} (h : AtLoop s)
include h

/-- A nonce that fails leads back to LOOPCHK with the next one, in at most seventeen steps (42_search.md R133). -/
theorem busyRun_missed (hlt : s.nonce.toNat < s.nonceMax.toNat) (hfail : attemptPasses s s.nonce = false) :
    ∃ (k : Nat) (t : State), k ≤ 17 ∧ BusyRun k s t ∧ AfterMisses s t ∧ t.nonce = s.nonce + 1 := by
  obtain ⟨a, hattempt, hu, hb, hop, hst, hverdict, ha⟩ := busyRun_attempt h hlt
  obtain ⟨k, hk, hreject⟩ := busyRun_reject hop hu hb hst (hverdict.trans hfail)
  have hninc := BusyRun.turn (q := .ninc) (s := { a with le := false, st := .ninc }) hu hb rfl rfl (.refl _)
  refine ⟨14 + (k + 1), _, by omega, hattempt.trans (hreject.trans hninc), ⟨?_, fun nonce => ?_⟩, ?_⟩
  · rw [ha, ← h.le, ← h.st]
  · rw [ha]
    exact setWordAt_setWordAt s.msg 76 s.nonce nonce
  · rw [ha]

/-- A nonce that passes leads to the first-match exit in seventeen steps. -/
theorem busyRun_won (hlt : s.nonce.toNat < s.nonceMax.toNat) (hpass : attemptPasses s s.nonce = true) :
    ∃ t, BusyRun 17 s t ∧
      t = { s with msg := t.msg, bufa := t.bufa, bufb := t.bufb, cur := t.cur, r := t.r,
                   digest := attemptDigest s s.nonce, winNonce := s.nonce,
                   hashesDone := hashesFound s.nonce s.nonceStart, busy := false, done := true, found := true,
                   le := true, st := .idle } := by
  obtain ⟨a, hattempt, hu, hb, hop, hst, hverdict, ha⟩ := busyRun_attempt h hlt
  have haccept := busyRun_accept hop hu hb hst (hverdict.trans hpass)
  have hfoundx := BusyRun.turn (q := .foundx) (s := { a with le := true, st := .foundx }) hu hb rfl rfl (.refl _)
  refine ⟨_, hattempt.trans (haccept.trans hfoundx), ?_⟩
  rw [ha]
  rfl

/-- With no nonce left LOOPCHK leads to the other exit. -/
theorem busyRun_exhausted (hend : s.nonceMax.toNat ≤ s.nonce.toNat) :
    BusyRun 2 s (complete { s with
      found := false, hashesDone := hashesNotFound s.nonce s.nonceStart, st := .exitnf }) :=
  .turn h.undisturbed h.busy h.st (execStLoopchk_exit (.inl hend))
    (.turn (q := .exitnf) (s := { s with st := .exitnf }) h.undisturbed h.busy rfl rfl (.refl _))

/-- The attempts of `d` nonces that fail. -/
theorem busyRun_misses (d : Nat) (hd : s.nonce.toNat + d ≤ s.nonceMax.toNat)
    (hfail : ∀ m : Word, s.nonce.toNat ≤ m.toNat → m.toNat < s.nonce.toNat + d → attemptPasses s m = false) :
    ∃ (k : Nat) (t : State), k ≤ 17 * d ∧ BusyRun k s t ∧ AfterMisses s t ∧ t.nonce.toNat = s.nonce.toNat + d := by
  induction d with
  | zero => exact ⟨0, s, Nat.le_refl _, .refl s, .refl s, rfl⟩
  | succ d ih =>
    obtain ⟨k, t, hk, hrun, hafter, hnonce⟩ := ih (by omega) fun m hm hlt => hfail m hm (by omega)
    have ⟨hframe, _⟩ := hafter
    have hmax : t.nonceMax = s.nonceMax := by rw [hframe]
    have hmiss : attemptPasses t t.nonce = false :=
      (hafter.attemptPasses t.nonce).trans (hfail t.nonce (by omega) (by omega))
    obtain ⟨k', u, hk', hrun', hafter', hnext⟩ := busyRun_missed (hafter.atLoop h) (by rw [hmax]; omega) hmiss
    have hlast : u.nonce.toNat = s.nonce.toNat + (d + 1) := by
      have := s.nonceMax.isLt
      have hone : (1 : Word).toNat = 1 := rfl
      rw [hnext, BitVec.toNat_add, hnonce, hone]
      exact Nat.mod_eq_of_lt (by omega)
    exact ⟨k + k', u, by omega, hrun.trans hrun', hafter.trans hafter', hlast⟩

end

/-! ### The two ends of a search -/

/-- What the search has of its command's operands after any number of misses. -/
theorem AfterMisses.operands {s t : State} (hafter : AfterMisses (searchEntered s) t) :
    t.et = effectiveTarget s.bench s.target ∧ t.hdr = s.hdr ∧ t.target = s.target ∧ t.nonceStart = s.nonceStart ∧
      t.nonceMax = s.nonceMax ∧ t.bench = s.bench ∧ t.winNonce = 0 := by
  obtain ⟨hframe, -⟩ := hafter
  rw [hframe, searchEntered]
  exact ⟨rfl, rfl, rfl, rfl, rfl, rfl, rfl⟩

/-- The preamble and the failing attempts of a search, up to nonce `n`. -/
theorem busyRun_search {s : State} (hu : Undisturbed s) (hcancel : s.cancel = false) {n : Word}
    (hfirst : s.nonceStart.toNat ≤ n.toNat) (hlast : n.toNat ≤ s.nonceMax.toNat)
    (hfail : ∀ m : Word, s.nonceStart.toNat ≤ m.toNat → m.toNat < n.toNat → noncePasses s m = false) :
    ∃ (k : Nat) (t : State), k ≤ 14 + 17 * (n.toNat - s.nonceStart.toNat) ∧ BusyRun k (searchStarted s) t ∧ AtLoop t ∧
      AfterMisses (searchEntered s) t ∧ t.nonce = n := by
  have hentered : AtLoop (searchEntered s) := atLoop_searchEntered hu hcancel
  have hnonce : (searchEntered s).nonce = s.nonceStart := rfl
  have hmax : (searchEntered s).nonceMax = s.nonceMax := rfl
  obtain ⟨k, t, hk, hrun, hafter, ht⟩ := busyRun_misses hentered (n.toNat - s.nonceStart.toNat)
    (by rw [hnonce, hmax]; omega) fun m hm hlt => by
      rw [hnonce] at hm hlt
      exact (attemptPasses_searchEntered s m).trans (hfail m hm (by omega))
  have htn : t.nonce = n := BitVec.eq_of_toNat_eq (by rw [ht, hnonce]; omega)
  exact ⟨14 + k, t, by omega, (busyRun_preamble hu).trans hrun, hafter.atLoop hentered, hafter, htn⟩

/-- Settles O31: the misses up to `n`, then the attempt that wins. -/
theorem searchFindsSmallestPassingNonce : Obligations.SearchFindsSmallestPassingNonce := by
  intro s n hidle hu hcancel hfirst hlt hpass hfail
  obtain ⟨k, t, hk, hrun, hloop, hafter, rfl⟩ := busyRun_search hu hcancel hfirst hlt.le hfail
  have hpass' : attemptPasses t t.nonce = true :=
    (hafter.attemptPasses t.nonce).trans ((attemptPasses_searchEntered s t.nonce).trans hpass)
  have hdigest : attemptDigest t t.nonce = nonceDigest s.hdr t.nonce :=
    (hafter.attemptDigest t.nonce).trans (attemptDigest_searchEntered s t.nonce)
  obtain ⟨het, hhdr, htarget, hstart, hmax, hbench, -⟩ := hafter.operands
  obtain ⟨u, hwon, hu'⟩ := busyRun_won hloop (by rwa [hmax]) hpass'
  have hcount : (hashesFound t.nonce t.nonceStart).toNat = t.nonce.toNat - s.nonceStart.toNat := by
    rw [hashesFound_toNat, hstart, workCount_of_le hfirst]
  refine ⟨_, u, k + 17, acceptCmd_idle searchStarted s hidle, (hrun.trans hwon).1, by omega, ?_⟩
  rw [hu']
  exact ⟨rfl, rfl, rfl, rfl, rfl, rfl, hcount, hdigest, het, hhdr, htarget, hstart, hmax, hbench⟩

/-- Settles O32: the misses up to NONCE_MAX, then the exit. -/
theorem searchExhaustsRange : Obligations.SearchExhaustsRange := by
  intro s hidle hu hcancel hrange hfail
  obtain ⟨k, t, hk, hrun, hloop, hafter, hnonce⟩ := busyRun_search hu hcancel hrange (Nat.le_refl _) hfail
  obtain ⟨-, -, -, hstart, hmax, -, hwin⟩ := hafter.operands
  have hexit := busyRun_exhausted hloop (by rw [hmax, hnonce])
  have hcount : (hashesNotFound t.nonce t.nonceStart).toNat = s.nonceMax.toNat - s.nonceStart.toNat + 1 := by
    rw [hashesNotFound_toNat, hstart, hnonce, workCount_of_le hrange]
  exact ⟨_, _, k + 2, acceptCmd_idle searchStarted s hidle, (hrun.trans hexit).1, by omega, rfl, rfl, rfl,
    hloop.le, hwin, hnonce, hcount⟩

end Sys2Proof.Machine

/-! PROOF. The comparator (43_comparator.md): the latched target, the two tiers as steps, and COMPARE as a run of them.
The pre-check and the full comparison are both said in numbers, so the run's verdict is the one comparison of R151
whichever tier gave it. -/

namespace Sys2Proof.Machine

/-! ### The effective target -/

/-- Benchmark mode replaces word 0 (43_comparator.md R150). -/
theorem effectiveTarget_zero (bench : Bool) (target : Vector Word 8) :
    (effectiveTarget bench target)[0] = if bench then Config.benchMsw else target[0] := by
  cases bench
  · rfl
  · exact Vector.getElem_set_self _

/-- And no other word. -/
theorem effectiveTarget_other (bench : Bool) (target : Vector Word 8) {j : Fin 8} (hj : j ≠ 0) :
    (effectiveTarget bench target)[j] = target[j] := by
  cases bench
  · rfl
  · exact Vector.getElem_set_ne (Nat.zero_lt_succ 7) j.isLt fun h => hj (Fin.ext h.symm)

/-- In the two commands that latch it, the target goes on to the header or to the comparator. -/
theorem execStTlatch_eq {s : State} (hop : s.op = .search ∨ s.op = .compare) :
    execStTlatch s =
      .next { s with et := effectiveTarget s.bench s.target, st := if s.op = .search then .conv else .cmp1 } := by
  obtain hop | hop := hop
  · rw [execStTlatch_search hop, if_pos hop]
  · rw [execStTlatch_compare hop, if_neg (by simp [hop])]

/-- Settles O35: the latched words are those of the effective target. -/
theorem tlatchLatchesEffectiveTarget : Obligations.TlatchLatchesEffectiveTarget :=
  fun s hop => ⟨_, execStTlatch_eq hop, rfl, fun _ hj => effectiveTarget_other s.bench s.target hj,
    effectiveTarget_zero s.bench s.target⟩

/-! ### The first tier -/

/-- The digest's high word, its first four bytes big-endian (20_memory.md R46). -/
theorem dw_zero_toNat (digest : Vector Byte 32) :
    (dw digest 0).toNat =
      digest[0].toNat * 2 ^ 24 + digest[1].toNat * 2 ^ 16 + digest[2].toNat * 2 ^ 8 + digest[3].toNat :=
  be32_toNat _ _ _ _

/-- CMP1 decides by the numbers of the high words (43_comparator.md R152). -/
theorem preCheck_iff {digest : Vector Byte 32} {et : Vector Word 8} :
    preCheck digest et = true ↔ (dw digest 0).toNat ≤ et[0].toNat := by
  rw [preCheck, decide_eq_true_eq, BitVec.le_def]

theorem preCheck_eq_false_iff {digest : Vector Byte 32} {et : Vector Word 8} :
    preCheck digest et = false ↔ et[0].toNat < (dw digest 0).toNat := by
  rw [← Bool.not_eq_true, preCheck_iff, Nat.not_le]

/-- CMP1, when the high word is not too great: LE is left for CMP2. -/
theorem execStCmp1_pass {s : State} (hpre : preCheck s.digest s.et = true) :
    execStCmp1 s = .next { s with st := .cmp2 } :=
  if_pos hpre

/-- CMP1 in a COMPARE, when the high word is too great: the verdict is there. -/
theorem execStCmp1_reject_compare {s : State} (hop : s.op = .compare) (hpre : preCheck s.digest s.et = false) :
    execStCmp1 s = .next (complete { s with le := false }) := by
  simp only [execStCmp1, hpre, compareDone, hop, Bool.false_eq_true, if_false]

/-- Settles O36: the three outcomes of CMP1, with the pre-check in numbers. -/
theorem cmp1PreCheck : Obligations.Cmp1PreCheck := by
  intro s high
  have hhigh : (dw s.digest 0).toNat = high := dw_zero_toNat s.digest
  rw [← hhigh]
  exact ⟨fun hle => execStCmp1_pass (preCheck_iff.mpr hle),
    fun hlt hop => execStCmp1_reject hop (preCheck_eq_false_iff.mpr hlt),
    fun hlt hop => execStCmp1_reject_compare hop (preCheck_eq_false_iff.mpr hlt)⟩

/-! ### The second tier, and the two together -/

/-- CMP2 in a COMPARE. -/
theorem execStCmp2_compare {s : State} (hop : s.op = .compare) :
    execStCmp2 s = .next (complete { s with le := accepted s.digest s.et }) := by
  simp only [execStCmp2, fullCompare_eq_accepted, compareDone, hop]

/-- Settles O37: `accepted` is the comparison of the numbers. -/
theorem cmp2FullCompare : Obligations.Cmp2FullCompare :=
  fun _ => ⟨fun hop => execStCmp2_search hop rfl, execStCmp2_compare⟩

/-- Settles O38: what the second tier accepts, the first lets through. -/
theorem twoTiersEqualOneComparison : Obligations.TwoTiersEqualOneComparison := by
  intro digest et
  rw [← fullCompare_eq_accepted, Bool.and_eq_right_iff_imp]
  exact preCheck_of_fullCompare

/-- A digest that the first tier stops is not accepted. -/
theorem accepted_of_preCheck_eq_false {digest : Vector Byte 32} {et : Vector Word 8}
    (hpre : preCheck digest et = false) : accepted digest et = false := by
  rw [← twoTiersEqualOneComparison digest et, hpre, Bool.false_and]

/-! ### The command -/

/-- From CMP1 on, a COMPARE completes with the verdict: by the first tier when that stops the digest, else by
the second. -/
theorem busyRun_verdict {s : State} (hop : s.op = .compare) (hu : Undisturbed s) (hb : s.busy = true)
    (hst : s.st = .cmp1) :
    BusyRun (if preCheck s.digest s.et then 2 else 1) s (complete { s with le := accepted s.digest s.et }) := by
  cases hpre : preCheck s.digest s.et
  · rw [accepted_of_preCheck_eq_false hpre]
    exact .turn hu hb hst (execStCmp1_reject_compare hop hpre) (.refl _)
  · exact .turn hu hb hst (execStCmp1_pass hpre)
      (.turn (q := .cmp2) (s := { s with st := .cmp2 }) hu hb rfl (execStCmp2_compare hop) (.refl _))

/-- Settles O39: TLATCH, then the comparator. -/
theorem compareComputesVerdict : Obligations.CompareComputesVerdict := by
  intro s hidle hu
  have hverdict := busyRun_verdict
    (s := { start .compare .tlatch s with et := effectiveTarget s.bench s.target, st := .cmp1 }) rfl hu rfl rfl
  obtain ⟨hrun, hbusy⟩ := BusyRun.turn (q := .tlatch) (s := start .compare .tlatch s) hu rfl rfl
    (execStTlatch_compare (s := start .compare .tlatch s) rfl) hverdict
  have hsteps : ∀ p : Bool, (if p then 3 else 2) = (if p then 2 else 1) + 1 := by decide
  rw [hsteps]
  refine ⟨_, _, acceptCmd_idle _ s hidle, hrun, ?_, hbusy⟩
  simp only [complete, start, hidle]

end Sys2Proof.Machine

/-! PROOF. The commands (44_control.md R165 to R170). What a CMD word does is said once for an accepted and once for a
refused write; the statements about single commands are its rows. -/

namespace Sys2Proof.Machine

/-! ### Every CMD word -/

/-- An accepted CMD write whose effect is known. -/
theorem acceptCmd_next {effect : State → State} {s t : State} (hb : s.busy = false) (h : effect s = t) :
    acceptCmd effect s = .next t :=
  h ▸ acceptCmd_idle effect s hb

/-- A word with ZERO = 0 is its opcode, and each row of the opcode map is accepted as R165 says. -/
theorem exec_decodeOpc_accepted {w : Word} {opc : BitVec 4} (hw : w.toNat = opc.toNat) {s : State}
    (hb : s.busy = false) : exec (decodeOpc opc) s = .next (acceptanceOf w s) := by
  have hlt := opc.isLt
  unfold decodeOpc acceptanceOf
  rw [hw]
  split
  case h_1 hopc => exact acceptCmd_next (effect := fun s => s) hb (by simp [hopc])
  case h_5 hopc => exact acceptCmd_next (effect := searchStarted) hb (by simp [hopc, searchStarted, start])
  case h_7 hopc =>
    exact acceptCmd_next (effect := fun s => { s with err := false, fallback := false }) hb (by simp [hopc])
  case h_16 =>
    have hopc : opc.toNat = 15 := by grind
    exact acceptCmd_next hb (by simp [hopc])
  all_goals
    rename opc.toNat = _ => hopc
    exact acceptCmd_next hb (by simp [hopc, start, setErr])

/-- A word with a bit of 31:4 set is reserved (44_control.md R170). -/
theorem acceptanceOf_highBits {w : Word} (hw : w.toNat / 16 ≠ 0) (s : State) : acceptanceOf w s = setErr s :=
  if_pos (.inl hw)

/-- An accepted CMD word, by its field ZERO (44_control.md R165). -/
theorem exec_decodeCmd_accepted (w : Word) {s : State} (hb : s.busy = false) :
    exec (decodeCmd w) s = .next (acceptanceOf w s) := by
  have hfields := append_toNat_eq (w.extractLsb' 4 28) (w.extractLsb' 0 4)
  rw [cmd_fields_append] at hfields
  have hopc := (w.extractLsb' 0 4).isLt
  unfold decodeCmd
  split
  next hzero =>
    rw [hzero] at hfields
    exact exec_decodeOpc_accepted (hfields.trans (by simp)) hb
  next hbits =>
    have hne : (w.extractLsb' 4 28).toNat ≠ 0 := fun h => hbits (BitVec.eq_of_toNat_eq h)
    rw [acceptanceOf_highBits (by omega)]
    exact acceptCmd_idle setErr s hb

/-- A refused CMD word (44_control.md R166): of the outcomes of a CMD write no other one is that of a BUSY block. -/
theorem exec_decodeCmd_refused (w : Word) {s : State} (hb : s.busy = true) :
    exec (decodeCmd w) s = .next (setErr s) := by
  obtain ⟨t, he, ho⟩ := exec_decodeCmd_outcome w s
  cases ho with
  | refused _ => exact he
  | nop idle | clrf idle | sreset idle | reserved idle | run idle _ _ _ | search idle =>
    exact absurd (hb.symm.trans idle) (by decide)

/-- Settles O5: the accepted CMD words are those of R165. -/
theorem commandAcceptance : Obligations.CommandAcceptance :=
  fun w _ hb => ⟨decodeCmd w, rfl, exec_decodeCmd_accepted w hb⟩

/-- Settles O11: while BUSY every CMD word is refused. -/
theorem busyRefusesEveryCommand : Obligations.BusyRefusesEveryCommand :=
  fun w _ hb => ⟨decodeCmd w, rfl, exec_decodeCmd_refused w hb⟩

/-! ### The single commands -/

/-- Settles O6: the effect of an accepted NOP is to keep the state. -/
theorem nopChangesNothing : Obligations.NopChangesNothing :=
  acceptCmd_idle fun s => s

/-- Settles O8: the effect of an accepted SRESET is `resetBlock`. -/
theorem sresetResetsEverything : Obligations.SresetResetsEverything := by
  intro s hb
  refine ⟨resetBlock s, acceptCmd_idle resetBlock s hb, ?_⟩
  have hperm : ∀ j : Fin 11, State.reset.perm[j].toNat = j.val := by decide
  simpa [State.reset] using hperm

/-- Settles O9: the effect of an accepted reserved word is `setErr`. -/
theorem reservedWordsOnlySetErr : Obligations.ReservedWordsOnlySetErr := by
  refine fun s hb => ⟨fun i hi => ?_, fun _ _ => acceptCmd_idle setErr s hb⟩
  simp only [List.mem_cons, List.not_mem_nil, or_false] at hi
  obtain rfl | rfl | rfl | rfl | rfl | rfl | rfl | rfl := hi
  all_goals exact acceptCmd_idle setErr s hb

/-- Settles O10: the effect of an accepted run command is `start`, and in a SEARCH its registers besides. -/
theorem runCommandsStart : Obligations.RunCommandsStart :=
  fun s hb => ⟨acceptCmd_idle (start .deriveSeed .pinit) s hb, acceptCmd_idle (start .deriveHdr .conv) s hb,
    acceptCmd_idle (start .hash .conv) s hb, acceptCmd_idle searchStarted s hb,
    acceptCmd_idle (start .compare .tlatch) s hb⟩

end Sys2Proof.Machine

/-! PROOF. The steps of the machine as a whole (44_control.md R165, R172): which instruction a step runs, that every step
goes on, that an idle sequencer has no step, and when the sticky flags fall. -/

namespace Sys2Proof.Machine

/-! ### The step that runs a decoded instruction -/

/-- A step fetches a word in two cases: the sequencer's turn, and a write that the bus brings to CMD. -/
theorem fetch_cases {s : State} {e : Encoded} (h : fetch s = some e) :
    s.rst = false ∧
      ((nextAction s = .tick ∧ e = .st (seqWord s)) ∨
        ∃ (addr width : Nat) (v : Word), nextAction s = .host (.write addr width v) ∧
          accessLegal addr width = true ∧ regAt addr = some .cmd ∧ e = .cmd v) := by
  unfold fetch at h
  split at h
  next => cases h
  next hr =>
    refine ⟨Bool.eq_false_iff.mpr hr, ?_⟩
    split at h
    next ha => exact .inl ⟨ha, (Option.some.inj h).symm⟩
    next addr width v ha =>
      split at h
      next hcmd => exact .inr ⟨addr, width, v, ha, hcmd.1, hcmd.2, (Option.some.inj h).symm⟩
      next => cases h
    all_goals cases h

/-- A write to CMD runs the word's instruction. -/
theorem writeOffset_cmd {addr : Nat} (h : regAt addr = some .cmd) (v : Word) (s : State) :
    writeOffset addr v s = exec (decodeCmd v) s := by
  rw [writeOffset, h]
  rfl

/-- The host's step for a legal CMD write: the instruction goes on, and the bus acknowledges it. -/
theorem hostStep_cmd {addr width : Nat} (hl : accessLegal addr width = true) (hcmd : regAt addr = some .cmd) (v : Word)
    (s : State) : hostStep (.write addr width v) s = answer .ack (exec (decodeCmd v) s) := by
  obtain ⟨t, he, -⟩ := exec_decodeCmd_outcome v s
  rw [hostStep_write s addr width v hl ((writeOffset_cmd hcmd v s).trans he), he, answer_next]

/-- Settles O47: the two cases of a fetch. -/
theorem stepRunsDecodedInstruction : Obligations.StepRunsDecodedInstruction := by
  intro s e i hfetch hdecode
  obtain ⟨hr, ⟨ha, rfl⟩ | ⟨addr, width, v, ha, hl, hcmd, rfl⟩⟩ := fetch_cases hfetch
  all_goals
    rw [step_running s hr, ha]
    refine ⟨fun c hc => ?_, fun w hw => ?_⟩
  · exact runEncoded_ok hdecode { s with sched := s.sched.tail }
  · cases hw
  · cases hc
  · obtain rfl := Except.ok.inj hdecode
    exact hostStep_cmd hl hcmd v _

/-- Settles O49: IDLE is the step that keeps the state, and the sequencer's turn while BUSY = 0 is one. -/
theorem idleBlockHasNoStep : Obligations.IdleBlockHasNoStep := by
  refine ⟨fun _ => rfl, fun s hb hr ha => ?_⟩
  rw [step_running s hr, ha]
  exact seqStep_idle (s := { s with sched := s.sched.tail }) hb

/-! ### The sequencer's turn goes on -/

/-- What no turn of the sequencer moves: the schedule and OP; and a fallback taken is not taken back. -/
def KeptByTurn (s t : State) : Prop := t.sched = s.sched ∧ t.op = s.op ∧ (s.fallback = true → t.fallback = true)

theorem KeptByTurn.refl (s : State) : KeptByTurn s s := ⟨rfl, rfl, id⟩

theorem compareDone_keptByTurn (q : SeqState) (s : State) : KeptByTurn s (compareDone q s) := by
  obtain ⟨-, e⟩ | ⟨-, e⟩ | ⟨-, -, e⟩ := compareDone_cases q s
  all_goals
    rw [e]
    exact .refl s

theorem shufDone_keptByTurn (s : State) : KeptByTurn s (shufDone s) := by
  rw [shufDone_frame]
  exact .refl s

/-- A round can only set FALLBACK (41_hashchain.md R101). -/
theorem roundBySel_keptByTurn (sel : Sel) (s : State) : KeptByTurn s (roundBySel sel s) := by
  obtain ⟨t, ht, hframe⟩ := runRound_frame (Config.CF (slotUnit sel))
    { s with fallback := s.fallback || slotInvalid sel }
  rw [roundBySel, ht, hframe]
  exact ⟨rfl, rfl, fun h => by simp [h]⟩

/-- TLATCH branches on OP only. -/
theorem execStTlatch_goesOn (s : State) : ∃ t, execStTlatch s = .next t ∧ KeptByTurn s t := by
  cases hop : s.op
  all_goals simp [execStTlatch, KeptByTurn, hop]

/-- DLATCH branches on OP only. -/
theorem execStDlatch_goesOn (s : State) : ∃ t, execStDlatch s = .next t ∧ KeptByTurn s t := by
  cases hop : s.op
  all_goals simp [execStDlatch, KeptByTurn, hop]

/-- CMP1, when the high word is too great, in any command (43_comparator.md R152). -/
theorem execStCmp1_fail {s : State} (hpre : preCheck s.digest s.et = false) :
    execStCmp1 s = .next (compareDone .ninc { s with le := false }) :=
  if_neg (Bool.eq_false_iff.mp hpre)

/-- The instruction of any sequencer state goes on, in any state of the block: the branches of a step by OP, by I and by
the comparison all end in a next state. -/
theorem exec_stateInstr_goesOn (q : SeqState) (s : State) :
    ∃ t, exec (stateInstr q) s = .next t ∧ KeptByTurn s t := by
  cases q
  case tlatch => exact execStTlatch_goesOn s
  case dlatch => exact execStDlatch_goesOn s
  case shuf =>
    obtain ⟨-, e⟩ | ⟨j, u, -, rfl, ⟨-, e⟩ | ⟨-, e⟩⟩ := execStShuf_cases s
    · exact ⟨_, e, .refl s⟩
    · exact ⟨_, e, shufDone_keptByTurn _⟩
    · exact ⟨_, e, .refl s⟩
  case cmp1 =>
    cases hpre : preCheck s.digest s.et
    · exact ⟨_, execStCmp1_fail hpre, compareDone_keptByTurn .ninc { s with le := false }⟩
    · exact ⟨_, execStCmp1_pass hpre, .refl s⟩
  case cmp2 => exact ⟨_, rfl, compareDone_keptByTurn _ { s with le := fullCompare s.digest s.et }⟩
  case round => exact ⟨_, rfl, roundBySel_keptByTurn _ s⟩
  all_goals exact ⟨_, rfl, rfl, rfl, id⟩

theorem seqStep_goesOn (s : State) : ∃ t, seqStep s = .next t ∧ KeptByTurn s t := by
  cases hb : s.busy
  · exact ⟨s, seqStep_idle hb, .refl s⟩
  · rw [seqStep_busy hb]
    exact exec_stateInstr_goesOn s.st s

/-! ### Every step goes on -/

/-- A write at any offset of the window. -/
theorem writeOffset_goesOn (addr : Nat) (v : Word) (s : State) : ∃ t, writeOffset addr v s = .next t := by
  obtain ⟨-, e⟩ | ⟨_, -, -, -, e⟩ | ⟨_, -, -, -, e⟩ | ⟨-, e⟩ := writeOffset_cases addr v s
  · obtain ⟨t, he, -⟩ := exec_decodeCmd_outcome v s
    exact ⟨t, e.trans he⟩
  all_goals exact ⟨_, e⟩

/-- A transaction of the host: an illegal one is answered with the error (20_memory.md R41). -/
theorem hostStep_goesOn (a : BusAccess) (s : State) : ∃ t, hostStep a s = .next t := by
  cases a with
  | read addr width =>
    cases hl : accessLegal addr width
    · exact ⟨_, hostStep_illegal_read s addr width hl⟩
    · exact ⟨_, hostStep_read s addr width hl⟩
  | write addr width v =>
    cases hl : accessLegal addr width
    · exact ⟨_, hostStep_illegal_write s addr width v hl⟩
    · obtain ⟨t, hw⟩ := writeOffset_goesOn addr v s
      exact ⟨_, hostStep_write s addr width v hl hw⟩

theorem actRunning_goesOn (a : Action) (s : State) : ∃ t, actRunning a s = .next t := by
  cases a with
  | tick =>
    obtain ⟨t, he, -⟩ := seqStep_goesOn s
    exact ⟨t, he⟩
  | host acc => exact hostStep_goesOn acc s
  | cancel level => exact ⟨_, rfl⟩
  | reset level => cases level <;> exact ⟨_, rfl⟩

theorem actInReset_goesOn (a : Action) (s : State) : ∃ t, actInReset a s = .next t := by
  cases a with
  | host acc =>
    cases acc with
    | read addr width => exact hostStep_goesOn (.read addr width) s
    | write addr width v => exact ⟨_, rfl⟩
  | tick | cancel level | reset level => exact ⟨_, rfl⟩

/-- Settles O48: with `rst` released or asserted, each agent's action goes on. -/
theorem everyStepGoesOn : Obligations.EveryStepGoesOn := by
  intro s
  cases hr : s.rst
  · obtain ⟨t, he⟩ := actRunning_goesOn (nextAction s) { s with sched := s.sched.tail }
    exact ⟨t, (step_running s hr).trans he⟩
  · obtain ⟨t, he⟩ := actInReset_goesOn (nextAction s) (resetBlock { s with sched := s.sched.tail })
    exact ⟨t, (step_inReset s hr).trans he⟩

/-! ### The sticky flags -/

/-- A sticky flag that is set before is set after: ERR and FALLBACK (10_state.md R26). -/
def StickyKept (s t : State) : Prop := (s.err = true → t.err = true) ∧ (s.fallback = true → t.fallback = true)

theorem StickyKept.refl (s : State) : StickyKept s s := ⟨id, id⟩

/-- No flag is kept that falls. -/
theorem StickyKept.not_falls {s t : State} (h : StickyKept s t) :
    ¬((s.err = true ∧ t.err = false) ∨ (s.fallback = true ∧ t.fallback = false)) := by
  obtain ⟨herr, hfallback⟩ := h
  rintro (⟨hs, ht⟩ | ⟨hs, ht⟩)
  · exact absurd ((herr hs).symm.trans ht) (by decide)
  · exact absurd ((hfallback hs).symm.trans ht) (by decide)

/-- The sequencer sets no ERR and takes no fallback back. -/
theorem seqStep_stickyKept {s t : State} (he : seqStep s = .next t) : StickyKept s t := by
  obtain ⟨u, hu, -, -, hfallback⟩ := seqStep_goesOn s
  obtain rfl := Host.Outcome.next.inj (hu.symm.trans he)
  obtain ⟨-, -, -, -, -, herr, -⟩ := seqStep_sameHostSide he
  exact ⟨fun h => herr.trans h, hfallback⟩

/-- Of the accepted words only CLRF and SRESET clear a flag (44_control.md R168). -/
theorem acceptanceOf_stickyKept {w : Word} (hclrf : w.toNat ≠ 6) (hsreset : w.toNat ≠ 15) (s : State) :
    StickyKept s (acceptanceOf w s) := by
  unfold acceptanceOf
  rw [if_neg hclrf, if_neg hsreset]
  split
  next => exact ⟨fun _ => rfl, id⟩
  repeat' split
  all_goals exact .refl s

/-- So a CMD write that clears a flag is one of these, accepted. -/
theorem exec_decodeCmd_sticky {w : Word} {s t : State} (he : exec (decodeCmd w) s = .next t) :
    StickyKept s t ∨ (s.busy = false ∧ (w = 6 ∨ w = 15)) := by
  cases hb : s.busy
  · by_cases hclrf : w.toNat = 6
    · exact .inr ⟨rfl, .inl (BitVec.eq_of_toNat_eq hclrf)⟩
    by_cases hsreset : w.toNat = 15
    · exact .inr ⟨rfl, .inr (BitVec.eq_of_toNat_eq hsreset)⟩
    obtain rfl := Host.Outcome.next.inj ((exec_decodeCmd_accepted w hb).symm.trans he)
    exact .inl (acceptanceOf_stickyKept hclrf hsreset s)
  · obtain rfl := Host.Outcome.next.inj ((exec_decodeCmd_refused w hb).symm.trans he)
    exact .inl ⟨fun _ => rfl, id⟩

/-- No register of the host holds a sticky flag. -/
theorem setReg_stickyKept (reg : Reg) (v : Word) (s : State) : StickyKept s (setReg reg v s) := by
  rw [setReg_frame]
  exact .refl s

/-- CMD stands at offset 0, and there only. -/
theorem cmd_address {addr width : Nat} (hl : accessLegal addr width = true) (hcmd : regAt addr = some .cmd) :
    addr = 0 ∧ width = 4 := by
  have hwidth : width = 4 := by
    by_contra hne
    exact absurd (((accessLegal_eq_false addr width).mpr (.inl hne)).symm.trans hl) (by decide)
  subst hwidth
  exact ⟨(regOffset_regAt hl hcmd).symm, rfl⟩

/-- A transaction that clears a flag is a write of CLRF or SRESET to CMD while BUSY = 0. -/
theorem hostStep_sticky {a : BusAccess} {s t : State} (he : hostStep a s = .next t) :
    StickyKept s t ∨ (s.busy = false ∧ (a = .write 0 4 6 ∨ a = .write 0 4 15)) := by
  cases a with
  | read addr width =>
    cases hl : accessLegal addr width
    · exact .inl (Host.Outcome.next.inj ((hostStep_illegal_read s addr width hl).symm.trans he) ▸ .refl s)
    · exact .inl (Host.Outcome.next.inj ((hostStep_read s addr width hl).symm.trans he) ▸ .refl s)
  | write addr width v =>
    cases hl : accessLegal addr width
    · exact .inl (Host.Outcome.next.inj ((hostStep_illegal_write s addr width v hl).symm.trans he) ▸ .refl s)
    · have written {u : State} (hw : writeOffset addr v s = .next u) : { u with resp := .ack } = t :=
        Host.Outcome.next.inj ((hostStep_write s addr width v hl hw).symm.trans he)
      obtain ⟨hcmd, hw⟩ | ⟨reg, -, -, -, hw⟩ | ⟨reg, -, -, -, hw⟩ | ⟨-, hw⟩ := writeOffset_cases addr v s
      · obtain ⟨rfl, rfl⟩ := cmd_address hl hcmd
        obtain ⟨u, hu, -⟩ := exec_decodeCmd_outcome v s
        rw [← written (hw.trans hu)]
        refine (exec_decodeCmd_sticky hu).imp id (And.imp_right ?_)
        exact Or.imp (congrArg (BusAccess.write 0 4)) (congrArg (BusAccess.write 0 4))
      · exact .inl (written hw ▸ ⟨fun _ => rfl, id⟩)
      · exact .inl (written hw ▸ setReg_stickyKept reg v s)
      · exact .inl (written hw ▸ .refl s)

/-- Settles O7: of the four agents' actions only a reset and the host's write of CLRF or SRESET clear a flag. -/
theorem clrfClearsStickyFlags : Obligations.ClrfClearsStickyFlags := by
  refine ⟨acceptCmd_idle fun s => { s with err := false, fallback := false }, fun s t hr hstep hfalls => ?_⟩
  have notKept (h : StickyKept s t) : False := h.not_falls hfalls
  rw [step_running s hr] at hstep
  cases ha : nextAction s with
  | tick =>
    rw [ha] at hstep
    exact (notKept (seqStep_stickyKept (s := { s with sched := s.sched.tail }) hstep)).elim
  | host a =>
    rw [ha] at hstep
    obtain hkept | ⟨hb, hword⟩ := hostStep_sticky (s := { s with sched := s.sched.tail }) hstep
    · exact (notKept hkept).elim
    · exact .inr ⟨hb, hword.imp (congrArg Action.host) (congrArg Action.host)⟩
  | cancel level =>
    rw [ha] at hstep
    exact (notKept (Host.Outcome.next.inj hstep ▸ .refl s)).elim
  | reset level =>
    rw [ha] at hstep
    cases level
    · exact (notKept (Host.Outcome.next.inj hstep ▸ .refl s)).elim
    · exact .inl rfl

end Sys2Proof.Machine

/-! PROOF. Every run command completes (44_control.md R171, R172; 42_search.md R133). A bound on the steps still to come is
read off ST, the counters I and R and the nonces left; each turn of a running sequencer lowers it, so by induction on it the
command completes, and it is largest at the start of a SEARCH over the whole range. -/

namespace Sys2Proof.Machine

/-! ### The steps still to come -/

/-- The steps of the attempts still to come: seventeen for each nonce left in a SEARCH (42_search.md R124), and those of one
attempt in every other command. -/
def attemptSteps (s : State) : Nat := if s.op = .search then 17 * (s.nonceMax.toNat - s.nonce.toNat) else 17

/-- The most steps still to come at a sequencer state, with I and R at `i` and `r` and `a` steps of attempts before it. -/
def stepsFrom (a i r : Nat) : SeqState → Nat
  | .idle => 0
  | .tlatch => a + 16
  | .conv => a + 15
  | .seedgen => a + 14
  | .pinit => a + 13
  | .shuf => a + 2 + i
  | .loopchk => a + 2
  | .nwrite => a + 1
  | .round => a - r
  | .dlatch => a - 11
  | .cmp1 => a - 12
  | .cmp2 => a - 13
  | .ninc => a - 14
  | .foundx => 1
  | .exitnf => 1

/-- The most steps still to come of the command that runs. -/
def stepsLeft (s : State) : Nat := stepsFrom (attemptSteps s) s.i.val s.r.val s.st

/-- The largest bound is that of a SEARCH from 0 to 2^32 - 1 (42_search.md R133). -/
theorem stepsLeft_le (s : State) : stepsLeft s ≤ 14 + 17 * (2 ^ 32 - 1) + 2 := by
  have ha : attemptSteps s ≤ 17 * (2 ^ 32 - 1) := by
    have hmax := s.nonceMax.isLt
    unfold attemptSteps
    split <;> omega
  have hi := s.i.isLt
  unfold stepsLeft
  cases s.st <;> simp only [stepsFrom] <;> omega

/-- The command and the nonces left to it are the same in both states. -/
def SameAttempts (s t : State) : Prop := t.op = s.op ∧ t.nonceMax = s.nonceMax ∧ t.nonce = s.nonce

theorem SameAttempts.steps {s t : State} (h : SameAttempts s t) : attemptSteps t = attemptSteps s := by
  obtain ⟨hop, hmax, hnonce⟩ := h
  rw [attemptSteps, hop, hmax, hnonce, attemptSteps]

/-- In an iteration an attempt is still to come: in a SEARCH because NONCE lies below NONCE_MAX (42_search.md R129). -/
theorem attemptSteps_iteration {s : State} (h : Reports s) (hb : s.busy = true) (hst : inIteration s.st = true) :
    17 ≤ attemptSteps s := by
  unfold attemptSteps
  split
  next hop =>
    obtain ⟨-, -, -, -, hmax⟩ := h.searching hb hop
    have hlt := BitVec.lt_def.mp (hmax hst)
    omega
  next => exact Nat.le_refl 17

/-! ### A turn of the sequencer -/

/-- A turn that brings the command nearer to its end, and is the end only by `Complete()`. -/
def Progress (s t : State) : Prop := stepsLeft t < stepsLeft s ∧ (t.busy = false → t.done = true)

/-- A turn that goes on with the same attempts to come. -/
theorem progress_goesOn {q : SeqState} {s t : State} (hst : s.st = q) (same : SameAttempts s t) (hb : t.busy = true)
    (hlt : stepsFrom (attemptSteps s) t.i.val t.r.val t.st < stepsFrom (attemptSteps s) s.i.val s.r.val q) :
    Progress s t := by
  refine ⟨?_, fun hidle => absurd (hb.symm.trans hidle) (by decide)⟩
  rwa [stepsLeft, stepsLeft, same.steps, hst]

/-- A running command is at a state of its own (10_state.md R28). -/
theorem Coherent.st_ne_idle {s : State} (hc : Coherent s) (hb : s.busy = true) : s.st ≠ .idle := by
  obtain ⟨⟨hst, -, -⟩, -⟩ := hc
  exact hst.mp hb

section
variable {s t : State} (hb : s.busy = true)
include hb

/-- TLATCH leaves the preamble of a SEARCH and one attempt's worth of a COMPARE to come. -/
theorem execStTlatch_progress (hc : Coherent s) (hst : s.st = .tlatch) (he : execStTlatch s = .next t) : Progress s t := by
  obtain hop | hop := stateOfCommand_comparator (by simp [hst]) hc.command
  · obtain rfl := Host.Outcome.next.inj ((execStTlatch_search hop).symm.trans he)
    exact progress_goesOn hst ⟨rfl, rfl, rfl⟩ hb (by simp [stepsFrom])
  · obtain rfl := Host.Outcome.next.inj ((execStTlatch_compare hop).symm.trans he)
    exact progress_goesOn hst ⟨rfl, rfl, rfl⟩ hb (by simp only [stepsFrom]; omega)

/-- LOOPCHK goes on with the attempt of a nonce or to the exit (42_search.md R122). -/
theorem execStLoopchk_progress (hst : s.st = .loopchk) (he : execStLoopchk s = .next t) : Progress s t := by
  obtain rfl := Host.Outcome.next.inj he
  refine progress_goesOn hst ⟨rfl, rfl, rfl⟩ hb ?_
  split
  all_goals
    simp only [stepsFrom]
    omega

variable (h : Reports s)
include h

/-- ROUND counts R up, and the chain ends after round 10. -/
theorem execStRound_progress (hst : s.st = .round) (he : execStRound s = .next t) : Progress s t := by
  have hattempt : 17 ≤ attemptSteps s := attemptSteps_iteration h hb (by simp [hst, inIteration])
  obtain rfl := Host.Outcome.next.inj he
  obtain ⟨⟨hop, -, -, -, hmax, hnonce, -⟩, hbt, -⟩ := roundBySel_sameReports s.perm[s.r] s
  refine progress_goesOn hst ⟨hop, hmax, hnonce⟩ (hbt.trans hb) ?_
  by_cases h0 : s.r = 0
  · have hr : s.r.val = 0 := congrArg Fin.val h0
    rw [roundBySel_zero _ h0]
    simp only [stepsFrom, hr, Fin.val_one]
    omega
  · obtain ⟨u, hu, -, -, -, hlast, hnext⟩ := roundBySel_later s.perm[s.r] h0
    rw [hu]
    by_cases h10 : s.r.val = 10
    · obtain ⟨-, hstu⟩ := hlast h10
      simp only [hstu, stepsFrom]
      omega
    · obtain ⟨hru, hstu⟩ := hnext h10
      simp only [hstu, hru, stepsFrom]
      omega

variable (hc : Coherent s)
include hc

/-- While a command runs, a step is still to come. -/
theorem stepsLeft_pos : 0 < stepsLeft s := by
  have hr := s.r.isLt
  have hattempt := attemptSteps_iteration h hb
  have hrunning := hc.st_ne_idle hb
  unfold stepsLeft
  cases hst : s.st <;> simp [hst, inIteration, stepsFrom] at hattempt hrunning ⊢
  all_goals omega

/-- `Complete()`. -/
theorem progress_complete (u : State) : Progress s (complete u) :=
  ⟨stepsLeft_pos hb h hc, fun _ => rfl⟩

/-- SHUF counts I down; after the last iteration HASH has its one attempt to come and SEARCH its loop. -/
theorem execStShuf_progress (hst : s.st = .shuf) (he : execStShuf s = .next t) : Progress s t := by
  have hcmd := hst ▸ hc.command
  obtain ⟨hi, -⟩ := hc.shuf hst
  obtain ⟨hi0, -⟩ | ⟨j, u, hj, rfl, ⟨-, e⟩ | ⟨-, e⟩⟩ := execStShuf_cases s
  · exact absurd hi0 hi
  all_goals obtain rfl := Host.Outcome.next.inj (e.symm.trans he)
  · obtain ⟨-, e⟩ | ⟨-, e⟩ | ⟨-, e⟩ | ⟨hop, -⟩ := shufDone_cases { s with
      prng := xorshift64 s.prng, perm := s.perm.swap s.i.val (shufIndex (xorshift64 s.prng) s.i).val, i := j }
    · exact e ▸ progress_complete hb h hc _
    · exact e ▸ progress_goesOn hst ⟨rfl, rfl, rfl⟩ hb (by simp only [stepsFrom]; omega)
    · exact e ▸ progress_goesOn hst ⟨rfl, rfl, rfl⟩ hb (by simp only [stepsFrom]; omega)
    · obtain hop | hop := hop <;> simp [show s.op = _ from hop, stateOfCommand] at hcmd
  · exact progress_goesOn hst ⟨rfl, rfl, rfl⟩ hb (by simp only [stepsFrom]; omega)

theorem execStDlatch_progress (hst : s.st = .dlatch) (he : execStDlatch s = .next t) : Progress s t := by
  have hattempt : 17 ≤ attemptSteps s := attemptSteps_iteration h hb (by simp [hst, inIteration])
  obtain hop | hop := stateOfCommand_chain (by simp [hst]) hc.command
  · obtain rfl := Host.Outcome.next.inj ((execStDlatch_hash hop).symm.trans he)
    exact progress_complete hb h hc _
  · obtain rfl := Host.Outcome.next.inj ((execStDlatch_search hop).symm.trans he)
    exact progress_goesOn hst ⟨rfl, rfl, rfl⟩ hb (by simp only [stepsFrom]; omega)

/-- The end of a comparison, at either tier: a COMPARE completes, a SEARCH goes on to `q`. -/
theorem compareDone_progress {p q : SeqState} (le : Bool) (hst : s.st = p) (hp : p ∈ [.tlatch, .cmp1, .cmp2])
    (hq : stepsFrom (attemptSteps s) s.i.val s.r.val q < stepsFrom (attemptSteps s) s.i.val s.r.val p) :
    Progress s (compareDone q { s with le := le }) := by
  obtain ⟨-, e⟩ | ⟨-, e⟩ | ⟨hs, hcmp, -⟩ := compareDone_cases q { s with le := le }
  · exact e ▸ progress_goesOn hst ⟨rfl, rfl, rfl⟩ hb hq
  · exact e ▸ progress_complete hb h hc _
  · exact absurd (stateOfCommand_comparator (hst ▸ hp) hc.command) (not_or.mpr ⟨hs, hcmp⟩)

theorem execStCmp1_progress (hst : s.st = .cmp1) (he : execStCmp1 s = .next t) : Progress s t := by
  have hattempt : 17 ≤ attemptSteps s := attemptSteps_iteration h hb (by simp [hst, inIteration])
  cases hpre : preCheck s.digest s.et
  · obtain rfl := Host.Outcome.next.inj ((execStCmp1_fail hpre).symm.trans he)
    exact compareDone_progress hb h hc false hst (by simp) (by simp only [stepsFrom]; omega)
  · obtain rfl := Host.Outcome.next.inj ((execStCmp1_pass hpre).symm.trans he)
    exact progress_goesOn hst ⟨rfl, rfl, rfl⟩ hb (by simp only [stepsFrom]; omega)

theorem execStCmp2_progress (hst : s.st = .cmp2) (he : execStCmp2 s = .next t) : Progress s t := by
  have hattempt : 17 ≤ attemptSteps s := attemptSteps_iteration h hb (by simp [hst, inIteration])
  obtain rfl := Host.Outcome.next.inj he
  refine compareDone_progress hb h hc _ hst (by simp) ?_
  split
  all_goals
    simp only [stepsFrom]
    omega

/-- NINC takes one nonce off those left, and so the seventeen steps of its attempt. -/
theorem execStNinc_progress (hst : s.st = .ninc) (he : execStNinc s = .next t) : Progress s t := by
  have hop : s.op = .search := stateOfCommand_loop (by simp [hst]) hc.command
  obtain ⟨-, -, -, -, hmax⟩ := h.searching hb hop
  have hlt : s.nonce.toNat < s.nonceMax.toNat := BitVec.lt_def.mp (hmax (by rw [hst]; rfl))
  have hnext : (s.nonce + 1).toNat = s.nonce.toNat + 1 := by
    have hbound := s.nonceMax.isLt
    have hone : (1 : Word).toNat = 1 := rfl
    rw [BitVec.toNat_add, hone]
    exact Nat.mod_eq_of_lt (by omega)
  obtain rfl := Host.Outcome.next.inj he
  refine ⟨?_, fun hidle => absurd (hb.symm.trans hidle) (by decide)⟩
  simp only [stepsLeft, attemptSteps, hop, hst, hnext, stepsFrom, if_true]
  omega

/-- The sequencer's turn while BUSY, state by state. -/
theorem exec_stateInstr_progress (he : exec (stateInstr s.st) s = .next t) : Progress s t := by
  cases hst : s.st <;> rw [hst] at he
  case idle => exact absurd hst (hc.st_ne_idle hb)
  case tlatch => exact execStTlatch_progress hb hc hst he
  case shuf => exact execStShuf_progress hb h hc hst he
  case loopchk => exact execStLoopchk_progress hb hst he
  case round => exact execStRound_progress hb h hst he
  case dlatch => exact execStDlatch_progress hb h hc hst he
  case cmp1 => exact execStCmp1_progress hb h hc hst he
  case cmp2 => exact execStCmp2_progress hb h hc hst he
  case ninc => exact execStNinc_progress hb h hc hst he
  all_goals obtain rfl := Host.Outcome.next.inj he
  case conv | seedgen => exact progress_goesOn hst ⟨rfl, rfl, rfl⟩ hb (by simp only [stepsFrom]; omega)
  case pinit => exact progress_goesOn hst ⟨rfl, rfl, rfl⟩ hb (by simp [stepsFrom])
  case nwrite => exact progress_goesOn hst ⟨rfl, rfl, rfl⟩ hb (by simp [stepsFrom])
  case foundx | exitnf => exact progress_complete hb h hc _

end

/-! ### The run to the end -/

/-- An undisturbed turn of a running command keeps the invariants and OP, leaves the sequencer undisturbed, and
brings the end nearer. -/
theorem step_progress {s : State} (h : Inv s) (hu : Undisturbed s) (hb : s.busy = true) :
    ∃ t, step s = .next t ∧ Inv t ∧ Undisturbed t ∧ t.op = s.op ∧ Progress s t := by
  obtain ⟨t, he, hsched, hop, -⟩ := exec_stateInstr_goesOn s.st s
  have hstep : step s = .next t := (step_busy hu hb (decode_seqCode s.st)).trans he
  obtain ⟨-, -, -, -, -, -, -, hrst, -⟩ := exec_stateInstr_sameHostSide he
  exact ⟨t, hstep, stepKeepsInvariants s t h hstep, ⟨hsched.trans hu.1, hrst.trans hu.2⟩, hop,
    exec_stateInstr_progress hb ⟨h.search, h.le⟩ ⟨h.control, h.chain⟩ he⟩

/-- A running command completes within the steps left to it (44_control.md R171). -/
theorem busyRun_completes (n : Nat) {s : State} (hn : stepsLeft s ≤ n) (h : Inv s) (hu : Undisturbed s)
    (hb : s.busy = true) :
    ∃ (k : Nat) (t : State), k ≤ n ∧ BusyRun k s t ∧ t.busy = false ∧ t.done = true ∧ t.st = .idle ∧ t.op = s.op := by
  induction n generalizing s with
  | zero => exact absurd (stepsLeft_pos hb ⟨h.search, h.le⟩ ⟨h.control, h.chain⟩) (Nat.not_lt.mpr hn)
  | succ n ih =>
    obtain ⟨t, hstep, ht, hut, hop, hless, hdone⟩ := step_progress h hu hb
    cases hbt : t.busy
    · have hidle : t.st = .idle := Coherent.st_idle ⟨ht.control, ht.chain⟩ hbt
      exact ⟨1, t, by omega, .step hb hstep (.refl t), hbt, hdone hbt, hidle, hop⟩
    · obtain ⟨k, u, hk, hrun, hbu, hdu, hsu, hopu⟩ := ih (by omega) ht hut hbt
      exact ⟨k + 1, u, by omega, .step hb hstep hrun, hbu, hdu, hsu, hopu.trans hop⟩

/-- Settles O58: an idle block is there already, and a running command has at most the steps of the longest SEARCH left. -/
theorem everyCommandCompletes : Obligations.EveryCommandCompletes := by
  intro s h hu
  cases hb : s.busy
  · exact ⟨0, s, Nat.zero_le _, rfl, hb, fun hbusy => absurd hbusy (by decide),
      fun _ _ hj => absurd hj (Nat.not_lt_zero _)⟩
  · obtain ⟨k, t, hk, ⟨hrun, hbusy⟩, hbt, hdone, hidle, hop⟩ := busyRun_completes _ (stepsLeft_le s) h hu hb
    exact ⟨k, t, hk, hrun, hbt, fun _ => ⟨hdone, hidle, hop⟩, hbusy⟩

end Sys2Proof.Machine

/-! PROOF. What sets ERR, and that nothing reads it (60_exceptions.md R191). Of the operations that the instructions are made
of, none branches on ERR, so two states that differ in ERR have outcomes that differ in ERR at most. In a step, a legal write
that CMD or an RW register refuses is the one action that sets it. -/

namespace Sys2Proof.Machine

/-! ### No instruction reads ERR -/

/-- The state with ERR at `e` and nothing else changed. -/
def withErr (e : Bool) (s : State) : State := { s with err := e }

@[simp] theorem withErr_op (e : Bool) (s : State) : (withErr e s).op = s.op := rfl

/-- Two outcomes that are next states with the same value in every field but ERR. -/
inductive AgreeButErr : Outcome → Outcome → Prop
  | next (e : Bool) (s : State) : AgreeButErr (.next s) (.next (withErr e s))

/-- A meaning whose outcome does not depend on ERR, but for ERR itself. -/
def IgnoresErr (m : State → Outcome) : Prop := ∀ (e : Bool) (s : State), AgreeButErr (m s) (m (withErr e s))

/-- The other outcome has the same next state, up to ERR. -/
theorem AgreeButErr.exists_next {o : Outcome} {t : State} (h : AgreeButErr (.next t) o) : ∃ e, o = .next (withErr e t) := by
  cases h with
  | next e => exact ⟨e, rfl⟩

/-- A meaning that chooses between two others by a condition that ERR does not enter. -/
theorem IgnoresErr.ite {c : State → Prop} [DecidablePred c] {m n : State → Outcome}
    (hc : ∀ (e : Bool) (s : State), c (withErr e s) ↔ c s) (hm : IgnoresErr m) (hn : IgnoresErr n) :
    IgnoresErr fun s => if c s then m s else n s := by
  intro e s
  simp only [hc]
  split
  · exact hm e s
  · exact hn e s

/-- A CMD write looks at BUSY to accept or to refuse. -/
theorem acceptCmd_ignoresErr {effect : State → State} (heffect : IgnoresErr fun s => .next (effect s)) :
    IgnoresErr (acceptCmd effect) :=
  .ite (fun _ _ => Iff.rfl) (fun _ s => .next true (setErr s)) heffect

/-- A round branches on R and CUR. -/
theorem runRound_withErr (f : List Byte → Vector Byte 64) (e : Bool) (s : State) :
    runRound f (withErr e s) = withErr e (runRound f s) := by
  by_cases h0 : s.r = 0
  · rw [runRound_zero f s h0, runRound_zero f (withErr e s) h0]
    rfl
  · cases hc : s.cur <;> by_cases h10 : s.r.val = 10 <;> simp [runRound, withErr, h0, hc, h10]

/-- FALLBACK, which the mux sets before the round, is another flag. -/
theorem roundBySel_ignoresErr (sel : Sel) : IgnoresErr fun s => .next (roundBySel sel s) := by
  intro e s
  have hround : roundBySel sel (withErr e s) = withErr e (roundBySel sel s) :=
    runRound_withErr _ e { s with fallback := s.fallback || slotInvalid sel }
  simp only [hround]
  exact .next e _

/-- The end of a comparison branches on OP. -/
theorem compareDone_ignoresErr (q : SeqState) : IgnoresErr fun s => .next (compareDone q s) := by
  intro e s
  simp only [compareDone, withErr_op]
  cases s.op <;> exact .next e _

/-- The end of the shuffle branches on OP. -/
theorem shufDone_ignoresErr : IgnoresErr fun s => .next (shufDone s) := by
  intro e s
  simp only [shufDone, withErr_op]
  cases s.op <;> exact .next e _

/-- TLATCH branches on OP. -/
theorem execStTlatch_ignoresErr : IgnoresErr execStTlatch := by
  intro e s
  simp only [execStTlatch, withErr_op]
  cases s.op <;> exact .next e _

/-- DLATCH branches on OP. -/
theorem execStDlatch_ignoresErr : IgnoresErr execStDlatch := by
  intro e s
  simp only [execStDlatch, withErr_op]
  cases s.op <;> exact .next e _

/-- SHUF branches on I, and after its last iteration goes on by OP. -/
theorem execStShuf_ignoresErr : IgnoresErr execStShuf :=
  .ite (fun _ _ => Iff.rfl) .next <|
    .ite (fun _ _ => Iff.rfl) (fun e _ => shufDone_ignoresErr e _) (fun e _ => .next e _)

/-- CMP1 branches on the pre-check, and after a failed one goes on by OP. -/
theorem execStCmp1_ignoresErr : IgnoresErr execStCmp1 :=
  .ite (fun _ _ => Iff.rfl) (fun e _ => .next e _) (fun e _ => compareDone_ignoresErr .ninc e _)

/-- Every instruction, by what its meaning is made of: a CMD write, a round, one update, or a step that branches. -/
theorem exec_ignoresErr : ∀ i : Instr, IgnoresErr (exec i)
  | .nop | .deriveSeed | .deriveHdr | .hash | .search | .compare => acceptCmd_ignoresErr fun e _ => .next e _
  | .clrf | .sreset => acceptCmd_ignoresErr fun _ _ => .next false _
  | .reserved7 | .reserved8 | .reserved9 | .reservedA | .reservedB | .reservedC | .reservedD | .reservedE
  | .reservedHighbits _ _ => acceptCmd_ignoresErr fun _ _ => .next true _
  | .blake512 | .bmw512 | .groestl512 | .skein512 | .jh512 | .keccak512 | .luffa512 | .cubehash512 | .shavite512
  | .simd512 | .echo512 | .invalidB | .invalidC | .invalidD | .invalidE | .invalidF => roundBySel_ignoresErr _
  | .stIdle | .stConv | .stSeedgen | .stPinit | .stLoopchk | .stNwrite | .stFoundx | .stNinc | .stExitnf =>
    fun e _ => .next e _
  | .stRound => fun e s => roundBySel_ignoresErr s.perm[s.r] e s
  | .stTlatch => execStTlatch_ignoresErr
  | .stShuf => execStShuf_ignoresErr
  | .stDlatch => execStDlatch_ignoresErr
  | .stCmp1 => execStCmp1_ignoresErr
  | .stCmp2 => fun e s => compareDone_ignoresErr _ e { s with le := fullCompare s.digest s.et }

/-! ### What sets ERR -/

/-- A CMD word with a bit of 31:4 set or with a reserved opcode, by its number (30_encoding.md R62). -/
def ReservedWord (w : Word) : Prop := 16 ≤ w.toNat ∨ (7 ≤ w.toNat ∧ w.toNat ≤ 14)

/-- The four cases of R191 as a write of `v` at a legal offset: CMD refuses it while BUSY or for the word, an RW register
while BUSY. -/
def RefusedAt (busy : Bool) (addr : Nat) (v : Word) : Prop :=
  (addr = 0 ∧ (busy = true ∨ ReservedWord v)) ∨ (busy = true ∧ ∃ reg, regOffset reg = addr ∧ regWritable reg = true)

/-- The actions that set ERR (60_exceptions.md R191). -/
def SetsErr (busy : Bool) (a : Action) : Prop :=
  ∃ (addr : Nat) (v : Word), a = .host (.write addr 4 v) ∧ addr % 4 = 0 ∧ addr < 0x400 ∧ RefusedAt busy addr v

/-- The refusals by the register that stands at the offset. -/
theorem refusedAt_iff_regAt {busy : Bool} {addr : Nat} {v : Word} (hl : accessLegal addr 4 = true) :
    RefusedAt busy addr v ↔
      (regAt addr = some .cmd ∧ (busy = true ∨ ReservedWord v)) ∨
        (busy = true ∧ ∃ reg, regAt addr = some reg ∧ regWritable reg = true) := by
  have stands (reg : Reg) : regOffset reg = addr ↔ regAt addr = some reg :=
    ⟨fun h => h ▸ regAt_regOffset reg, regOffset_regAt hl⟩
  have hcmd : addr = 0 ↔ regAt addr = some .cmd := eq_comm.trans (stands .cmd)
  simp only [RefusedAt, stands, hcmd]

/-- An accepted word sets ERR exactly when it is reserved (44_control.md R165, R170). -/
theorem acceptanceOf_err {w : Word} {s : State} (hs : s.err = false) :
    (acceptanceOf w s).err = true ↔ ReservedWord w := by
  unfold acceptanceOf ReservedWord
  split
  next hreserved => simp only [true_iff]; omega
  next haccepted =>
    have hnot : ¬(16 ≤ w.toNat ∨ (7 ≤ w.toNat ∧ w.toNat ≤ 14)) := by omega
    simp only [hnot, iff_false]
    repeat' split
    all_goals simp [hs, State.reset]

/-- A CMD write sets ERR when it is refused while BUSY, or accepted with a reserved word. -/
theorem exec_decodeCmd_err {w : Word} {s t : State} (hs : s.err = false) (he : exec (decodeCmd w) s = .next t) :
    t.err = true ↔ s.busy = true ∨ ReservedWord w := by
  cases hb : s.busy
  · obtain rfl := Host.Outcome.next.inj ((exec_decodeCmd_accepted w hb).symm.trans he)
    simp [acceptanceOf_err hs]
  · obtain rfl := Host.Outcome.next.inj ((exec_decodeCmd_refused w hb).symm.trans he)
    simp

/-- A legal write sets ERR exactly when it is refused. -/
theorem writeOffset_err {addr : Nat} {v : Word} {s t : State} (hl : accessLegal addr 4 = true) (hs : s.err = false)
    (hw : writeOffset addr v s = .next t) : t.err = true ↔ RefusedAt s.busy addr v := by
  rw [refusedAt_iff_regAt hl]
  obtain ⟨hcmd, e⟩ | ⟨reg, hreg, hrw, hb, e⟩ | ⟨reg, hreg, hrw, hb, e⟩ | ⟨hro, e⟩ := writeOffset_cases addr v s
  · rw [exec_decodeCmd_err hs (e.symm.trans hw)]
    simp [hcmd, regWritable]
  all_goals obtain rfl := Host.Outcome.next.inj (e.symm.trans hw)
  · simp [hreg, hrw, hb]
  · have hne : reg ≠ .cmd := by rintro rfl; cases hrw
    rw [setReg_frame]
    simp [hs, hreg, hb, hne]
  · have hcmd : regAt addr ≠ some .cmd := fun h => (hro .cmd h).2 rfl
    have hnone : ¬∃ reg, regAt addr = some reg ∧ regWritable reg = true := by
      rintro ⟨reg, hreg, hrw⟩
      exact absurd (hrw.symm.trans (hro reg hreg).1) (by decide)
    simp [hs, hcmd, hnone]

/-- A transaction of the host sets ERR exactly when it is a legal write that is refused. -/
theorem hostStep_err {a : BusAccess} {s t : State} (hs : s.err = false) (he : hostStep a s = .next t) :
    t.err = true ↔ SetsErr s.busy (.host a) := by
  cases a with
  | read addr width =>
    have herr : t.err = false := by
      cases hl : accessLegal addr width
      · exact Host.Outcome.next.inj ((hostStep_illegal_read s addr width hl).symm.trans he) ▸ hs
      · exact Host.Outcome.next.inj ((hostStep_read s addr width hl).symm.trans he) ▸ hs
    simp [herr, SetsErr]
  | write addr width v =>
    cases hl : accessLegal addr width
    · obtain rfl := Host.Outcome.next.inj ((hostStep_illegal_write s addr width v hl).symm.trans he)
      simp only [hs, Bool.false_eq_true, false_iff]
      rintro ⟨_, _, ha, hmul, hlt, -⟩
      cases ha
      exact absurd (((accessLegal_word addr).mpr ⟨hmul, hlt⟩).symm.trans hl) (by decide)
    · obtain ⟨u, hu⟩ := writeOffset_goesOn addr v s
      obtain rfl := Host.Outcome.next.inj ((hostStep_write s addr width v hl hu).symm.trans he)
      have hwidth : width = 4 := by
        simp only [accessLegal, decide_eq_true_eq] at hl
        exact hl.1
      subst hwidth
      obtain ⟨hmul, hlt⟩ := (accessLegal_word addr).mp hl
      simp [writeOffset_err hl hs hu, SetsErr, hmul, hlt]

/-- Of the four agents only the host sets ERR. -/
theorem actRunning_err {a : Action} {s t : State} (hs : s.err = false) (he : actRunning a s = .next t) :
    t.err = true ↔ SetsErr s.busy a := by
  cases a with
  | host acc => exact hostStep_err hs he
  | tick =>
    obtain ⟨-, -, -, -, -, herr, -⟩ := seqStep_sameHostSide he
    simp [herr, hs, SetsErr]
  | cancel level =>
    obtain rfl := Host.Outcome.next.inj he
    simp [hs, SetsErr]
  | reset level => cases level <;> obtain rfl := Host.Outcome.next.inj he <;> simp [hs, SetsErr, State.reset]

/-- Settles O51: no instruction reads ERR; a step with `rst` released sets it by a refused write only, and clears it, as a
sticky flag, by reset, CLRF and SRESET only. -/
theorem causesOfErr : Obligations.CausesOfErr := by
  obtain ⟨-, hclears⟩ := clrfClearsStickyFlags
  refine ⟨fun i s t e h => (h ▸ exec_ignoresErr i e s).exists_next, fun s t hstep hr => ⟨?_, fun ⟨ht, hs⟩ => ?_⟩⟩
  · rw [and_comm]
    refine and_congr_right fun hs => ?_
    exact actRunning_err (s := { s with sched := s.sched.tail }) hs ((step_running s hr).symm.trans hstep)
  · exact hclears s t hr hstep (.inl ⟨hs, ht⟩)

end Sys2Proof.Machine

/-! PROOF. A SEARCH that makes no iteration (70_reset_and_hazards.md R214, 42_search.md R131): the preamble of any search,
then LOOPCHK finds `cancel` raised or no nonce left and goes to the failing exit. -/

namespace Sys2Proof.Machine

/-- The preamble converts no word at 76, so the bytes of the nonce stay. -/
theorem serialise_nineteen_nonce (hdr : Vector Word 20) (msg : Vector Byte 80) {b : Nat} (hb : b < 80) (hnonce : 76 ≤ b) :
    (serialise 19 hdr msg)[b] = msg[b] := by
  rw [serialise_get, if_neg (by omega)]

/-- The nineteen words of the preamble hold the whole previous hash (30_encoding.md R68). -/
theorem previousHash_serialise (hdr : Vector Word 20) (msg : Vector Byte 80) :
    previousHash (serialise 19 hdr msg) = previousHash (headerBytes hdr) := by
  have hwhole : setWordAt (serialise 19 hdr msg) 76 hdr[19] = headerBytes hdr := by
    rw [setWordAt_serialise, Vector.set_getElem_self]
  rw [← hwhole, previousHash_setWordAt]

/-- At the first nonce of the range the failing exit reports one hash (42_search.md R127). -/
theorem hashesNotFound_self (first : Word) : hashesNotFound first first = 1 := by
  simp [hashesNotFound]

/-- A LOOPCHK that does not go on leads to the failing exit: no nonce is left, or `cancel` reads 1 (42_search.md R122). -/
theorem busyRun_loopExit {s : State} (hu : Undisturbed s) (hb : s.busy = true) (hst : s.st = .loopchk)
    (hend : s.nonceMax.toNat ≤ s.nonce.toNat ∨ s.cancel = true) :
    BusyRun 2 s (complete { s with
      found := false, hashesDone := hashesNotFound s.nonce s.nonceStart, st := .exitnf }) :=
  .turn hu hb hst (execStLoopchk_exit hend) (.turn (q := .exitnf) (s := { s with st := .exitnf }) hu hb rfl rfl (.refl _))

/-- A search without an iteration, from its start: fourteen steps of preamble and the two of the exit. -/
theorem busyRun_searchWithoutIteration {s : State} (hu : Undisturbed s)
    (hend : s.nonceMax.toNat ≤ s.nonceStart.toNat ∨ s.cancel = true) :
    BusyRun 16 (searchStarted s) (complete { searchEntered s with found := false, hashesDone := 1, st := .exitnf }) := by
  have ⟨hsched, hrst⟩ := hu
  have hexit := busyRun_loopExit (s := searchEntered s) ⟨hsched, hrst⟩ rfl rfl hend
  have hcount : hashesNotFound (searchEntered s).nonce (searchEntered s).nonceStart = 1 :=
    hashesNotFound_self s.nonceStart
  rw [hcount] at hexit
  exact (busyRun_preamble hu).trans hexit

/-- Settles O33: the run of sixteen steps, with the seed read off the header. -/
theorem searchWithoutIteration : Obligations.SearchWithoutIteration := by
  intro s hidle hu hend
  obtain ⟨hrun, hbusy⟩ := busyRun_searchWithoutIteration hu hend.symm
  refine ⟨searchStarted s, _, acceptCmd_idle searchStarted s hidle, hrun, ?_, fun b hb => ?_, hbusy⟩
  · simp only [complete, searchEntered, searchStarted, start, previousHash_serialise, hidle]
  · exact serialise_nineteen_nonce s.hdr s.msg b.isLt hb

end Sys2Proof.Machine

/-! PROOF. `rst` wins over everything (70_reset_and_hazards.md R210): every step that meets it asserted, or asserts it, is
the outcome `held` of a step, and the host reads of a held block what it reads after reset. -/

namespace Sys2Proof.Machine

/-- Driving `rst` to 1 resets the block and leaves it there, with `rst` released or asserted before. -/
theorem step_assertsReset {s : State} (ha : nextAction s = .reset true) :
    step s = .next { resetBlock s with sched := s.sched.tail, rst := true } := by
  cases hr : s.rst
  · rw [step_running s hr, ha]
    rfl
  · rw [step_inReset s hr, ha]
    rfl

/-- Every step that begins with `rst` asserted leaves the block at its reset values, the one that releases it too. -/
theorem stepOutcome_held {s t : State} (hr : s.rst = true) (ho : StepOutcome s t) : resetBlock t = t := by
  have notReleased (h : s.rst = false) : False := absurd (hr.symm.trans h) (by decide)
  cases ho with
  | held _ _ _ _ => rfl
  | quiet h _ _ | turn h _ _ _ | command h _ _ | refusedWrite h _ | takenWrite h _ _ _ _ => exact (notReleased h).elim

/-- A read of a register while `rst` is asserted answers its reset value, whatever the registers were. -/
theorem step_readInReset {s : State} {reg : Reg} (hr : s.rst = true)
    (ha : nextAction s = .host (.read (regOffset reg) 4)) :
    step s = .next { resetBlock s with sched := s.sched.tail, resp := .data (readReg State.reset reg) } := by
  have hread := hostStep_read (resetBlock { s with sched := s.sched.tail }) _ _ (accessLegal_regOffset reg)
  rw [readOffset_regOffset, readReg_resetBlock] at hread
  rw [step_inReset s hr, ha]
  exact hread

/-- Settles O52: the entry into reset, the hold, and the reads. -/
theorem resetWinsOverEverything : Obligations.ResetWinsOverEverything :=
  ⟨fun _ ha => ⟨_, step_assertsReset ha, rfl, rfl, rfl⟩, fun _ _ hr hstep => stepOutcome_held hr (step_outcome hstep),
    fun _ _ hr ha => ⟨_, step_readInReset hr ha, rfl⟩⟩

end Sys2Proof.Machine
